-- ==== Sys2Proof/Word.lean ====
section
/-! DEFINITION. The word types of the machine (spec/00_scope R4, R5). -/

namespace Sys2Proof

/-- An 8-bit value: a register, a memory cell, a port value, an instruction byte (R4). -/
abbrev Byte := BitVec 8

/-- A 16-bit value: an address, SP, PC, a register pair (R4). -/
abbrev Word := BitVec 16

end Sys2Proof
end

