-- ==== Sys2Proof/Config.lean ====
section
/-! DEFINITION. The values the spec leaves open, as constants without a body: nothing in Lean can evaluate one or
prove which value it has, so a claim holds whatever it is (spec/93_implementation_defined section U). -/

namespace Sys2Proof

/-- The n-th free byte: every "fresh draw" of an 8-bit or smaller value takes the next n (R30, R41, R52, R53; U2, U3,
U4, U5, U8). DESIGN CHOICE, log 16; safe. -/
opaque Config.freeByte : Nat → Byte

/-- The n-th free 16-bit value: SP after a RESET event (R270, U5). DESIGN CHOICE, log 16; safe. -/
opaque Config.freeWord : Nat → Word

/-- What a memory cell holds that nothing has written: one unspecified byte per address, the same at each read
(R52, U2). DESIGN CHOICE, log 4; safe. -/
opaque Config.powerUpByte : Word → Byte

end Sys2Proof
end

