-- ==== Sys2Proof/Syntax.lean ====
section
/-! DEFINITION. The instructions, one constructor for each row of spec/opcode_table.json (spec/30_encoding R83). -/

namespace Sys2Proof

/-- The seven 8-bit registers a register code names (R20, R74). Code 6 is M, the memory operand, no register. -/
inductive Reg
  | b | c | d | e | h | l | a
  deriving DecidableEq, Repr

/-- The operands of a register pair code (R7, R75): BC, DE, HL and SP. PUSH PSW and POP PSW are rows of their own. -/
inductive RegPair
  | bc | de | hl | sp
  deriving DecidableEq, Repr

/-- The eight conditions of the conditional jumps, calls and returns (R76, R181). -/
inductive Cond
  | nz | z | nc | c | po | pe | p | m
  deriving DecidableEq, Repr

/-- The instruction set: 95 forms for the 246 defined opcode bytes and the ten undefined bytes (R73, R81, R83).
A 16-bit operand is `d16` or `a16` of R77, an 8-bit one `d8` or `p8`. -/
inductive Instr
  -- data transfer, spec/40_data_transfer
  | movRR (dst src : Reg)
  | movRM (dst : Reg)
  | movMR (src : Reg)
  | mviR (dst : Reg) (d8 : Byte)
  | mviM (d8 : Byte)
  | xchg
  | lda (a16 : Word)
  | ldax (pair : RegPair)
  | lxi (pair : RegPair) (d16 : Word)
  | sta (a16 : Word)
  | stax (pair : RegPair)
  | lhld (a16 : Word)
  | shld (a16 : Word)
  -- arithmetic, spec/41_arithmetic
  | addR (src : Reg)
  | addM
  | adcR (src : Reg)
  | adcM
  | adi (d8 : Byte)
  | aci (d8 : Byte)
  | dad (pair : RegPair)
  | daa
  | subR (src : Reg)
  | subM
  | sbbR (src : Reg)
  | sbbM
  | sui (d8 : Byte)
  | sbi (d8 : Byte)
  | inrR (dst : Reg)
  | inrM
  | inx (pair : RegPair)
  | dcrR (dst : Reg)
  | dcrM
  | dcx (pair : RegPair)
  -- logical, spec/42_logical
  | anaR (src : Reg)
  | anaM
  | ani (d8 : Byte)
  | xraR (src : Reg)
  | xraM
  | xri (d8 : Byte)
  | oraR (src : Reg)
  | oraM
  | ori (d8 : Byte)
  | cmpR (src : Reg)
  | cmpM
  | cpi (d8 : Byte)
  | stc
  | cmc
  | cma
  | rlc
  | rrc
  | ral
  | rar
  -- branch, spec/43_branch
  | jmp (a16 : Word)
  | jnz (a16 : Word)
  | jz (a16 : Word)
  | jnc (a16 : Word)
  | jc (a16 : Word)
  | jpo (a16 : Word)
  | jpe (a16 : Word)
  | jp (a16 : Word)
  | jm (a16 : Word)
  | call (a16 : Word)
  | cnz (a16 : Word)
  | cz (a16 : Word)
  | cnc (a16 : Word)
  | cc (a16 : Word)
  | cpo (a16 : Word)
  | cpe (a16 : Word)
  | cp (a16 : Word)
  | cm (a16 : Word)
  | ret
  | rnz
  | rz
  | rnc
  | rc
  | rpo
  | rpe
  | rp
  | rm
  | rst (n : BitVec 3)
  | pchl
  -- control, spec/44_control
  | nop
  | hlt
  | ei
  | di
  | sim
  | rim
  -- input, output and stack, spec/45_io_stack
  | inPort (p8 : Byte)
  | outPort (p8 : Byte)
  | push (pair : RegPair)
  | pushPsw
  | pop (pair : RegPair)
  | popPsw
  | xthl
  | sphl
  -- the ten undefined opcode bytes, spec/30_encoding R81
  | undef08
  | undef10
  | undef18
  | undef28
  | undef38
  | undefCB
  | undefD9
  | undefDD
  | undefED
  | undefFD
  deriving DecidableEq, Repr

end Sys2Proof
end

