-- ==== Sys2Proof/WellFormed.lean ====
section
/-! DEFINITION. Which terms of `Instr` stand for an instruction: a register pair must be one its row admits
(spec/30_encoding R75). Every other operand is well formed by its type: no value of d8, p8, d16, a16 or n is
restricted (R73). -/

namespace Sys2Proof

/-- LDAX and STAX take BC or DE only (R75, R108, R111; C8). -/
def RegPair.indirect : RegPair → Bool
  | .bc | .de => true
  | .hl | .sp => false

/-- PUSH and POP take BC, DE or HL; pair code 11 is PSW there, not SP (R75, R233, R235). -/
def RegPair.stackable : RegPair → Bool
  | .bc | .de | .hl => true
  | .sp => false

/-- The term is an instruction: its pair operand is one of those its row of the opcode table lists. -/
def Instr.wellFormed : Instr → Bool
  | .ldax pair => pair.indirect
  | .stax pair => pair.indirect
  | .push pair => pair.stackable
  | .pop pair => pair.stackable
  | .movRR _ _ | .movRM _ | .movMR _ | .mviR _ _ | .mviM _ | .xchg | .lda _ | .lxi _ _ | .sta _ | .lhld _
  | .shld _ | .addR _ | .addM | .adcR _ | .adcM | .adi _ | .aci _ | .dad _ | .daa | .subR _ | .subM | .sbbR _
  | .sbbM | .sui _ | .sbi _ | .inrR _ | .inrM | .inx _ | .dcrR _ | .dcrM | .dcx _ | .anaR _ | .anaM | .ani _
  | .xraR _ | .xraM | .xri _ | .oraR _ | .oraM | .ori _ | .cmpR _ | .cmpM | .cpi _ | .stc | .cmc | .cma | .rlc
  | .rrc | .ral | .rar | .jmp _ | .jnz _ | .jz _ | .jnc _ | .jc _ | .jpo _ | .jpe _ | .jp _ | .jm _ | .call _
  | .cnz _ | .cz _ | .cnc _ | .cc _ | .cpo _ | .cpe _ | .cp _ | .cm _ | .ret | .rnz | .rz | .rnc | .rc | .rpo
  | .rpe | .rp | .rm | .rst _ | .pchl | .nop | .hlt | .ei | .di | .sim | .rim | .inPort _ | .outPort _
  | .pushPsw | .popPsw | .xthl | .sphl | .undef08 | .undef10 | .undef18 | .undef28 | .undef38 | .undefCB
  | .undefD9 | .undefDD | .undefED | .undefFD => true

end Sys2Proof
end

