-- ==== Sys2Proof/Decode.lean ====
section
/-! DEFINITION. From instruction bytes to instructions and back (spec/30_encoding R70 to R82). The decoder is total:
each of the 256 opcode bytes is exactly one form, the ten undefined bytes among them (R73, R81). -/

namespace Sys2Proof

/-- The low-order byte of a 16-bit value (R5, R54). -/
def loByte (w : Word) : Byte := w.extractLsb' 0 8

/-- The high-order byte of a 16-bit value (R5, R54). -/
def hiByte (w : Word) : Byte := w.extractLsb' 8 8

/-- The 16-bit value `hi : lo` (R5, R77). -/
def wordOf (hi lo : Byte) : Word := hi ++ lo

/-- The register code of a register (R74). -/
def Reg.code : Reg → BitVec 3
  | .b => 0 | .c => 1 | .d => 2 | .e => 3 | .h => 4 | .l => 5 | .a => 7

/-- The register pair code of a pair (R75). -/
def RegPair.code : RegPair → BitVec 2
  | .bc => 0 | .de => 1 | .hl => 2 | .sp => 3

/-- The operand a register code names: a register, or none for code 110, which is M (R74). -/
def operandOfCode (code : BitVec 3) : Option Reg :=
  match code.toNat with
  | 0 => some .b
  | 1 => some .c
  | 2 => some .d
  | 3 => some .e
  | 4 => some .h
  | 5 => some .l
  | 6 => none
  | _ => some .a

/-- The pair a register pair code names (R75, first column). -/
def pairOfCode (code : BitVec 2) : RegPair :=
  match code.toNat with
  | 0 => .bc
  | 1 => .de
  | 2 => .hl
  | _ => .sp

/-- Quadrant 00 (R78): `y` = op[5:3], `z` = op[2:0], `pp` = op[5:4]. -/
def decodeQuadrant00 (y z : BitVec 3) (pp : BitVec 2) (b2 b3 : Byte) : Instr :=
  match z.toNat with
  | 0 =>
    match y.toNat with
    | 0 => .nop
    | 1 => .undef08
    | 2 => .undef10
    | 3 => .undef18
    | 4 => .rim
    | 5 => .undef28
    | 6 => .sim
    | _ => .undef38
  | 1 => if y.getLsbD 0 then .dad (pairOfCode pp) else .lxi (pairOfCode pp) (wordOf b3 b2)
  | 2 =>
    match y.toNat with
    | 0 => .stax .bc
    | 1 => .ldax .bc
    | 2 => .stax .de
    | 3 => .ldax .de
    | 4 => .shld (wordOf b3 b2)
    | 5 => .lhld (wordOf b3 b2)
    | 6 => .sta (wordOf b3 b2)
    | _ => .lda (wordOf b3 b2)
  | 3 => if y.getLsbD 0 then .dcx (pairOfCode pp) else .inx (pairOfCode pp)
  | 4 =>
    match operandOfCode y with
    | some r => .inrR r
    | none => .inrM
  | 5 =>
    match operandOfCode y with
    | some r => .dcrR r
    | none => .dcrM
  | 6 =>
    match operandOfCode y with
    | some r => .mviR r b2
    | none => .mviM b2
  | _ =>
    match y.toNat with
    | 0 => .rlc
    | 1 => .rrc
    | 2 => .ral
    | 3 => .rar
    | 4 => .daa
    | 5 => .cma
    | 6 => .stc
    | _ => .cmc

/-- Quadrant 01 (R79): MOV, with code 110 for M on one side; 110 on both is HLT. -/
def decodeQuadrant01 (ddd sss : BitVec 3) : Instr :=
  match operandOfCode ddd, operandOfCode sss with
  | some dst, some src => .movRR dst src
  | some dst, none => .movRM dst
  | none, some src => .movMR src
  | none, none => .hlt

/-- Quadrant 10 (R79): operation `ooo` on A and the operand `sss`. -/
def decodeQuadrant10 (ooo sss : BitVec 3) : Instr :=
  match ooo.toNat, operandOfCode sss with
  | 0, some r => .addR r
  | 0, none => .addM
  | 1, some r => .adcR r
  | 1, none => .adcM
  | 2, some r => .subR r
  | 2, none => .subM
  | 3, some r => .sbbR r
  | 3, none => .sbbM
  | 4, some r => .anaR r
  | 4, none => .anaM
  | 5, some r => .xraR r
  | 5, none => .xraM
  | 6, some r => .oraR r
  | 6, none => .oraM
  | _, some r => .cmpR r
  | _, none => .cmpM

/-- Quadrant 11 (R80): `y` = op[5:3], `z` = op[2:0], `pp` = op[5:4]. -/
def decodeQuadrant11 (y z : BitVec 3) (pp : BitVec 2) (b2 b3 : Byte) : Instr :=
  match z.toNat with
  | 0 =>
    match y.toNat with
    | 0 => .rnz
    | 1 => .rz
    | 2 => .rnc
    | 3 => .rc
    | 4 => .rpo
    | 5 => .rpe
    | 6 => .rp
    | _ => .rm
  | 1 =>
    match y.toNat with
    | 1 => .ret
    | 3 => .undefD9
    | 5 => .pchl
    | 6 => .popPsw
    | 7 => .sphl
    | _ => .pop (pairOfCode pp)
  | 2 =>
    match y.toNat with
    | 0 => .jnz (wordOf b3 b2)
    | 1 => .jz (wordOf b3 b2)
    | 2 => .jnc (wordOf b3 b2)
    | 3 => .jc (wordOf b3 b2)
    | 4 => .jpo (wordOf b3 b2)
    | 5 => .jpe (wordOf b3 b2)
    | 6 => .jp (wordOf b3 b2)
    | _ => .jm (wordOf b3 b2)
  | 3 =>
    match y.toNat with
    | 0 => .jmp (wordOf b3 b2)
    | 1 => .undefCB
    | 2 => .outPort b2
    | 3 => .inPort b2
    | 4 => .xthl
    | 5 => .xchg
    | 6 => .di
    | _ => .ei
  | 4 =>
    match y.toNat with
    | 0 => .cnz (wordOf b3 b2)
    | 1 => .cz (wordOf b3 b2)
    | 2 => .cnc (wordOf b3 b2)
    | 3 => .cc (wordOf b3 b2)
    | 4 => .cpo (wordOf b3 b2)
    | 5 => .cpe (wordOf b3 b2)
    | 6 => .cp (wordOf b3 b2)
    | _ => .cm (wordOf b3 b2)
  | 5 =>
    match y.toNat with
    | 1 => .call (wordOf b3 b2)
    | 3 => .undefDD
    | 5 => .undefED
    | 6 => .pushPsw
    | 7 => .undefFD
    | _ => .push (pairOfCode pp)
  | 6 =>
    match y.toNat with
    | 0 => .adi b2
    | 1 => .aci b2
    | 2 => .sui b2
    | 3 => .sbi b2
    | 4 => .ani b2
    | 5 => .xri b2
    | 6 => .ori b2
    | _ => .cpi b2
  | _ => .rst y

/-- The instruction whose opcode byte is `op` and whose second and third bytes, where it has them, are `b2` and `b3`
(R72, R78 to R82). -/
def decode (op b2 b3 : Byte) : Instr :=
  let y : BitVec 3 := op.extractLsb' 3 3
  let z : BitVec 3 := op.extractLsb' 0 3
  let pp : BitVec 2 := op.extractLsb' 4 2
  match (op.extractLsb' 6 2 : BitVec 2).toNat with
  | 0 => decodeQuadrant00 y z pp b2 b3
  | 1 => decodeQuadrant01 y z
  | 2 => decodeQuadrant10 y z
  | _ => decodeQuadrant11 y z pp b2 b3

/-- The length in bytes of an instruction (R70, R71). -/
def Instr.length : Instr → Nat
  | .movRR _ _ | .movRM _ | .movMR _ | .xchg | .ldax _ | .stax _ | .addR _ | .addM | .adcR _ | .adcM | .dad _
  | .daa | .subR _ | .subM | .sbbR _ | .sbbM | .inrR _ | .inrM | .inx _ | .dcrR _ | .dcrM | .dcx _ | .anaR _
  | .anaM | .xraR _ | .xraM | .oraR _ | .oraM | .cmpR _ | .cmpM | .stc | .cmc | .cma | .rlc | .rrc | .ral | .rar
  | .ret | .rnz | .rz | .rnc | .rc | .rpo | .rpe | .rp | .rm | .rst _ | .pchl | .nop | .hlt | .ei | .di | .sim
  | .rim | .push _ | .pushPsw | .pop _ | .popPsw | .xthl | .sphl | .undef08 | .undef10 | .undef18 | .undef28
  | .undef38 | .undefCB | .undefD9 | .undefDD | .undefED | .undefFD => 1
  | .mviR _ _ | .mviM _ | .adi _ | .aci _ | .sui _ | .sbi _ | .ani _ | .xri _ | .ori _ | .cpi _ | .inPort _
  | .outPort _ => 2
  | .lda _ | .lxi _ _ | .sta _ | .lhld _ | .shld _ | .jmp _ | .jnz _ | .jz _ | .jnc _ | .jc _ | .jpo _ | .jpe _
  | .jp _ | .jm _ | .call _ | .cnz _ | .cz _ | .cnc _ | .cc _ | .cpo _ | .cpe _ | .cp _ | .cm _ => 3

/-- The length of the instruction an opcode byte begins: a function of the opcode byte alone (R70). -/
def opcodeLength (op : Byte) : Nat := (decode op 0 0).length

/-- What a list of bytes begins with. -/
inductive Decoded
  /-- an instruction, and the bytes after it -/
  | instr (i : Instr) (rest : List Byte)
  /-- no byte at all -/
  | noBytes
  /-- the list ends inside the instruction that the opcode byte `op` begins -/
  | truncated (op : Byte)
  deriving DecidableEq, Repr

/-- Decoding of a list of bytes, rejecting by name a list that ends too early (R70, R71; log 22). -/
def decodeBytes : List Byte → Decoded
  | [] => .noBytes
  | op :: rest =>
    match opcodeLength op, rest with
    | 1, rest => .instr (decode op 0 0) rest
    | 2, b2 :: rest => .instr (decode op b2 0) rest
    | 3, b2 :: b3 :: rest => .instr (decode op b2 b3) rest
    | _, _ => .truncated op

/-- The three bytes, first at the lowest address, of the table word `w` of `nbits` bits; the bits above are 0. -/
def tableBytes (nbits w : Nat) : List Byte :=
  let v := w % 2 ^ nbits
  [BitVec.ofNat 8 v, BitVec.ofNat 8 (v / 2 ^ 8), BitVec.ofNat 8 (v / 2 ^ 16)]

/-- What the decoder reads from an instruction whose bits are `w`, numbered as spec/opcode_table.json numbers them. -/
def decodeTableWord (nbits w : Nat) : Option Instr :=
  match decodeBytes (tableBytes nbits w) with
  | .instr i _ => some i
  | .noBytes => none
  | .truncated _ => none

/-- The opcode byte of an instruction, by its encoding row (R78 to R81). -/
def Instr.opcode : Instr → Byte
  | .movRR dst src => 0b01#2 ++ dst.code ++ src.code
  | .movRM dst => 0b01#2 ++ dst.code ++ 0b110#3
  | .movMR src => 0b01110#5 ++ src.code
  | .mviR dst _ => 0b00#2 ++ dst.code ++ 0b110#3
  | .mviM _ => 0b00110110
  | .xchg => 0b11101011
  | .lda _ => 0b00111010
  | .ldax pair => 0b00#2 ++ pair.code ++ 0b1010#4
  | .lxi pair _ => 0b00#2 ++ pair.code ++ 0b0001#4
  | .sta _ => 0b00110010
  | .stax pair => 0b00#2 ++ pair.code ++ 0b0010#4
  | .lhld _ => 0b00101010
  | .shld _ => 0b00100010
  | .addR src => 0b10000#5 ++ src.code
  | .addM => 0b10000110
  | .adcR src => 0b10001#5 ++ src.code
  | .adcM => 0b10001110
  | .adi _ => 0b11000110
  | .aci _ => 0b11001110
  | .dad pair => 0b00#2 ++ pair.code ++ 0b1001#4
  | .daa => 0b00100111
  | .subR src => 0b10010#5 ++ src.code
  | .subM => 0b10010110
  | .sbbR src => 0b10011#5 ++ src.code
  | .sbbM => 0b10011110
  | .sui _ => 0b11010110
  | .sbi _ => 0b11011110
  | .inrR dst => 0b00#2 ++ dst.code ++ 0b100#3
  | .inrM => 0b00110100
  | .inx pair => 0b00#2 ++ pair.code ++ 0b0011#4
  | .dcrR dst => 0b00#2 ++ dst.code ++ 0b101#3
  | .dcrM => 0b00110101
  | .dcx pair => 0b00#2 ++ pair.code ++ 0b1011#4
  | .anaR src => 0b10100#5 ++ src.code
  | .anaM => 0b10100110
  | .ani _ => 0b11100110
  | .xraR src => 0b10101#5 ++ src.code
  | .xraM => 0b10101110
  | .xri _ => 0b11101110
  | .oraR src => 0b10110#5 ++ src.code
  | .oraM => 0b10110110
  | .ori _ => 0b11110110
  | .cmpR src => 0b10111#5 ++ src.code
  | .cmpM => 0b10111110
  | .cpi _ => 0b11111110
  | .stc => 0b00110111
  | .cmc => 0b00111111
  | .cma => 0b00101111
  | .rlc => 0b00000111
  | .rrc => 0b00001111
  | .ral => 0b00010111
  | .rar => 0b00011111
  | .jmp _ => 0b11000011
  | .jnz _ => 0b11000010
  | .jz _ => 0b11001010
  | .jnc _ => 0b11010010
  | .jc _ => 0b11011010
  | .jpo _ => 0b11100010
  | .jpe _ => 0b11101010
  | .jp _ => 0b11110010
  | .jm _ => 0b11111010
  | .call _ => 0b11001101
  | .cnz _ => 0b11000100
  | .cz _ => 0b11001100
  | .cnc _ => 0b11010100
  | .cc _ => 0b11011100
  | .cpo _ => 0b11100100
  | .cpe _ => 0b11101100
  | .cp _ => 0b11110100
  | .cm _ => 0b11111100
  | .ret => 0b11001001
  | .rnz => 0b11000000
  | .rz => 0b11001000
  | .rnc => 0b11010000
  | .rc => 0b11011000
  | .rpo => 0b11100000
  | .rpe => 0b11101000
  | .rp => 0b11110000
  | .rm => 0b11111000
  | .rst n => 0b11#2 ++ n ++ 0b111#3
  | .pchl => 0b11101001
  | .nop => 0b00000000
  | .hlt => 0b01110110
  | .ei => 0b11111011
  | .di => 0b11110011
  | .sim => 0b00110000
  | .rim => 0b00100000
  | .inPort _ => 0b11011011
  | .outPort _ => 0b11010011
  | .push pair => 0b11#2 ++ pair.code ++ 0b0101#4
  | .pushPsw => 0b11110101
  | .pop pair => 0b11#2 ++ pair.code ++ 0b0001#4
  | .popPsw => 0b11110001
  | .xthl => 0b11100011
  | .sphl => 0b11111001
  | .undef08 => 0b00001000
  | .undef10 => 0b00010000
  | .undef18 => 0b00011000
  | .undef28 => 0b00101000
  | .undef38 => 0b00111000
  | .undefCB => 0b11001011
  | .undefD9 => 0b11011001
  | .undefDD => 0b11011101
  | .undefED => 0b11101101
  | .undefFD => 0b11111101

/-- The bytes after the opcode: d8 or p8, or the low-order then the high-order byte of d16 or a16 (R71, R77). -/
def Instr.operandBytes : Instr → List Byte
  | .movRR _ _ | .movRM _ | .movMR _ | .xchg | .ldax _ | .stax _ | .addR _ | .addM | .adcR _ | .adcM | .dad _
  | .daa | .subR _ | .subM | .sbbR _ | .sbbM | .inrR _ | .inrM | .inx _ | .dcrR _ | .dcrM | .dcx _ | .anaR _
  | .anaM | .xraR _ | .xraM | .oraR _ | .oraM | .cmpR _ | .cmpM | .stc | .cmc | .cma | .rlc | .rrc | .ral | .rar
  | .ret | .rnz | .rz | .rnc | .rc | .rpo | .rpe | .rp | .rm | .rst _ | .pchl | .nop | .hlt | .ei | .di | .sim
  | .rim | .push _ | .pushPsw | .pop _ | .popPsw | .xthl | .sphl | .undef08 | .undef10 | .undef18 | .undef28
  | .undef38 | .undefCB | .undefD9 | .undefDD | .undefED | .undefFD => []
  | .mviR _ d8 => [d8]
  | .mviM d8 => [d8]
  | .lda a16 => [loByte a16, hiByte a16]
  | .lxi _ d16 => [loByte d16, hiByte d16]
  | .sta a16 => [loByte a16, hiByte a16]
  | .lhld a16 => [loByte a16, hiByte a16]
  | .shld a16 => [loByte a16, hiByte a16]
  | .adi d8 => [d8]
  | .aci d8 => [d8]
  | .sui d8 => [d8]
  | .sbi d8 => [d8]
  | .ani d8 => [d8]
  | .xri d8 => [d8]
  | .ori d8 => [d8]
  | .cpi d8 => [d8]
  | .jmp a16 => [loByte a16, hiByte a16]
  | .jnz a16 => [loByte a16, hiByte a16]
  | .jz a16 => [loByte a16, hiByte a16]
  | .jnc a16 => [loByte a16, hiByte a16]
  | .jc a16 => [loByte a16, hiByte a16]
  | .jpo a16 => [loByte a16, hiByte a16]
  | .jpe a16 => [loByte a16, hiByte a16]
  | .jp a16 => [loByte a16, hiByte a16]
  | .jm a16 => [loByte a16, hiByte a16]
  | .call a16 => [loByte a16, hiByte a16]
  | .cnz a16 => [loByte a16, hiByte a16]
  | .cz a16 => [loByte a16, hiByte a16]
  | .cnc a16 => [loByte a16, hiByte a16]
  | .cc a16 => [loByte a16, hiByte a16]
  | .cpo a16 => [loByte a16, hiByte a16]
  | .cpe a16 => [loByte a16, hiByte a16]
  | .cp a16 => [loByte a16, hiByte a16]
  | .cm a16 => [loByte a16, hiByte a16]
  | .inPort p8 => [p8]
  | .outPort p8 => [p8]

/-- The bytes of an instruction, first at the lowest address (R55, R71). -/
def encode (i : Instr) : List Byte := i.opcode :: i.operandBytes

end Sys2Proof
end

