-- ==== Sys2Proof/Machine/State.lean ====
section
/-! DEFINITION. Everything the machine is made of: the processor's record of spec/10_state, the memory of
spec/20_memory R50, and as plain data the platform parameters MemMap, IoEnv and IntEnv of spec/00_scope R4. -/

namespace Sys2Proof.Machine

/-- The seven 8-bit general registers (R20). The pairs BC, DE, HL are views of them (R22). -/
structure Regs where
  a : Byte
  b : Byte
  c : Byte
  d : Byte
  e : Byte
  h : Byte
  l : Byte
  deriving DecidableEq, Repr

/-- The five status flags (R28). -/
structure Flags where
  /-- S, sign -/
  s : Bool
  /-- Z, zero -/
  z : Bool
  /-- AC, auxiliary carry -/
  ac : Bool
  /-- P, even parity -/
  p : Bool
  /-- CY, carry or borrow -/
  cy : Bool
  deriving DecidableEq, Repr

/-- The interrupt control state (R33 to R36, R39). -/
structure IntCtl where
  /-- INTE, the interrupt enable flip-flop (R33) -/
  inte : Bool
  /-- mask of RST 5.5, true = masked (R34) -/
  m55 : Bool
  /-- mask of RST 6.5, true = masked (R34) -/
  m65 : Bool
  /-- mask of RST 7.5, true = masked (R34) -/
  m75 : Bool
  /-- R75, the RST 7.5 request latch (R35) -/
  r75 : Bool
  /-- TRAPFF, the TRAP request latch (R36) -/
  trapff : Bool
  /-- ei_delay: EI was executed in this step (R39 a) -/
  eiDelay : Bool
  /-- trap_ie: INTE as it was before the last TRAP, until a RIM has read it (R39 b) -/
  trapIe : Option Bool
  deriving DecidableEq, Repr

/-- The five interrupt inputs (R241). -/
inductive Interrupt
  | trap | rst75 | rst65 | rst55 | intr
  deriving DecidableEq, Repr

/-- What `IntEnv.sample()` gives at one sampling point (R246). -/
structure PinSample where
  /-- TRAP rose since the previous sampling point -/
  trapEdge : Bool
  /-- TRAP is high now -/
  trapLevel : Bool
  /-- RST 7.5 rose since the previous sampling point -/
  r75Edge : Bool
  /-- RST 6.5 is high now -/
  r65Level : Bool
  /-- RST 5.5 is high now -/
  r55Level : Bool
  /-- INTR is high now -/
  intrLevel : Bool
  deriving DecidableEq, Repr

/-- What the environment's pins present to the processor in the course of one step (R12, R225, R246, R277). -/
structure StepInput where
  /-- RESET IN at the head of the step (R270) -/
  resetIn : Bool
  /-- SID while the instruction executes; none where the platform gives no value (R37, U8) -/
  sid : Option Bool
  /-- the RST 6.5 pin while the instruction executes, as RIM sees it (R225) -/
  rst65Pin : Bool
  /-- the RST 5.5 pin while the instruction executes, as RIM sees it (R225) -/
  rst55Pin : Bool
  /-- the sampling point at the end of the step (R246) -/
  pins : PinSample
  deriving DecidableEq, Repr

/-- The four kinds of address of `MemMap` (R52). -/
inductive MemKind
  | ram | rom | unpopulated | device
  deriving DecidableEq, Repr

/-- One entry of the memory map: the addresses `first` to `last`, both included, are of kind `kind` (R52). -/
structure Region where
  first : Word
  last : Word
  kind : MemKind
  deriving DecidableEq, Repr

/-- What passes between the processor and the outside other than pin levels (R52, R53, R57, R250, R277). -/
inductive Event
  /-- OUT: the output port `port` received `value` (R53, R232) -/
  | portWrite (port value : Byte)
  /-- IN: the input port `port` was read and gave `value` (R53, R231) -/
  | portRead (port value : Byte)
  /-- a memory write at a device address (R52) -/
  | deviceWrite (addr : Word) (value : Byte)
  /-- a memory read at a device address (R52) -/
  | deviceRead (addr : Word) (value : Byte)
  /-- an interrupt acknowledge cycle that gave `value` (R250) -/
  | acknowledge (value : Byte)
  /-- SOD changed to `value` (R37, R277) -/
  | sodChange (value : Bool)
  deriving DecidableEq, Repr

/-- The platform: its memory map, what it will present, what it has been told. Not state of the processor: the
parameters `MemMap`, `IoEnv`, `IntEnv` and `SID` of R4 as plain data (logs 5 to 12, 16, 17). -/
structure Env where
  /-- `MemMap`; the first region that holds an address decides, an address in none is RAM (R52, log 5) -/
  memMap : List Region
  /-- `IntEnv`, one entry a step; after the last entry every pin is quiet (log 9) -/
  inputs : List StepInput
  /-- the bytes `IntEnv.acknowledge()` will give, in order (R250, log 11) -/
  ackAnswers : List Byte
  /-- the bytes `IoRead` will give, in order (R53, log 8) -/
  portAnswers : List Byte
  /-- the bytes reads of device addresses will give, in order (R52, log 7) -/
  deviceAnswers : List Byte
  /-- what has passed so far, newest first (R277, log 17) -/
  events : List Event
  /-- how many free values have been drawn (log 16) -/
  draws : Nat
  deriving DecidableEq, Repr

/-- Memory: the bytes that something has written or the platform has loaded, addresses strictly rising (R50; log 4). -/
abbrev Memory := List Host.Cell

/-- The machine. -/
structure State where
  /-- A, B, C, D, E, H, L (R20) -/
  regs : Regs
  /-- S, Z, AC, P, CY (R28) -/
  flags : Flags
  /-- SP (R24) -/
  sp : Word
  /-- PC (R25) -/
  pc : Word
  /-- INTE, the masks, the request latches, ei_delay, trap_ie (R33 to R36, R39) -/
  int : IntCtl
  /-- SOD, the serial output latch (R37) -/
  sod : Bool
  /-- halted (R38) -/
  halted : Bool
  /-- the 64 KiB memory space (R50) -/
  mem : Memory
  /-- the platform (R4) -/
  env : Env
  deriving DecidableEq, Repr

/-- Why the machine stops with a fault: never. The 8085 raises no synchronous exception (R240), so there is no
constructor. -/
inductive Fault
  deriving DecidableEq, Repr

/-- Why the model gives a step no next state. -/
inductive Refusal
  /-- Raised by `exec` for an instruction the model has no meaning for; safe. No arm raises it. -/
  | notModelled (mnemonic : String)
  /-- Raised by the ten undefined opcode bytes: `UndefinedOpcode(pc, byte)` of R13, R81, U1 (log 13); safe. -/
  | undefinedOpcode (pc : Word) (op : Byte)
  /-- Raised by taking INTR when the acknowledge byte is neither RST n nor CALL (R250, U6; log 11); safe. -/
  | acknowledgeByte (value : Byte)
  deriving DecidableEq, Repr

/-- The outcome of an instruction or a step. -/
abbrev StepOutcome := Host.Outcome State Fault Refusal

/-- No pin is active and no edge has come: the spec's default of `IntEnv` (spec/92_eei_decisions, second table). -/
def PinSample.quiet : PinSample where
  trapEdge := false
  trapLevel := false
  r75Edge := false
  r65Level := false
  r55Level := false
  intrLevel := false

/-- A step in which the environment presents nothing; SID has no given value (U8). -/
def StepInput.quiet : StepInput where
  resetIn := false
  sid := none
  rst65Pin := false
  rst55Pin := false
  pins := .quiet

/-- The platform of the reset state: all RAM (R52), quiet, nothing answered yet (logs 5, 7 to 11, 16, 17). -/
def Env.initial : Env where
  memMap := []
  inputs := []
  ackAnswers := []
  portAnswers := []
  deviceAnswers := []
  events := []
  draws := 0

/-- The interrupt control state after RESET (R41, R270). -/
def IntCtl.reset : IntCtl where
  inte := false
  m55 := true
  m65 := true
  m75 := true
  r75 := false
  trapff := false
  eiDelay := false
  trapIe := none

/-- The machine right after power-up reset (R41, R270, R273). PC, the interrupt control state, SOD and halted are the
spec's. A to L, SP and the flags are unspecified there: zero is a DESIGN CHOICE, logs 1 and 2, unsafe. Memory lists
nothing: RAM is unspecified at power-up (log 4). -/
def State.reset : State where
  regs := { a := 0, b := 0, c := 0, d := 0, e := 0, h := 0, l := 0 }
  flags := { s := false, z := false, ac := false, p := false, cy := false }
  sp := 0
  pc := 0
  int := .reset
  sod := false
  halted := false
  mem := []
  env := .initial

end Sys2Proof.Machine
end

