-- ==== Sys2Proof/Machine/Ops.lean ====
section
/-! DEFINITION. The shared operations: memory and port accesses (spec/20_memory), the stack (spec/43_branch R180),
taking an interrupt and returning (spec/60_exceptions R248, R250, R252), RESET (spec/70_reset_and_hazards R270). -/

namespace Sys2Proof.Machine

/-! ### Memory contents -/

/-- The byte listed for an address, if one is. -/
def Memory.lookup : Memory → Nat → Option Byte
  | [], _ => none
  | (k, v) :: m, a => if k = a then some v else Memory.lookup m a

/-- Store a byte, keeping the addresses strictly rising. Every written byte is listed: an unlisted address has no
value of its own to compare with (log 4). -/
def Memory.store : Memory → Nat → Byte → Memory
  | [], a, v => [(a, v)]
  | (k, w) :: m, a, v =>
    if a < k then (a, v) :: (k, w) :: m
    else if a = k then (a, v) :: m
    else (k, w) :: Memory.store m a v

/-- Every address listed is at least `lo`, below 2^16, and they are strictly rising. -/
def Memory.wfFrom : Nat → Memory → Bool
  | _, [] => true
  | lo, (k, _) :: m => decide (lo ≤ k) && decide (k < 65536) && Memory.wfFrom (k + 1) m

/-- The canonical form: addresses strictly rising and all inside the 64 KiB space (R50). -/
def Memory.wf (m : Memory) : Bool := Memory.wfFrom 0 m

/-- What an address nothing has written reads as: one unspecified byte, always the same (R52, U2; log 4). -/
def unlistedByte (a : Word) : Byte := Config.powerUpByte a

/-- The content of the memory cell at an address: the last byte written, or what the cell held at power-up (R52).
Looking at it is no access. -/
def State.byteAt (s : State) (a : Word) : Byte := (s.mem.lookup a.toNat).getD (unlistedByte a)

/-! ### The memory map -/

/-- The region holds the address. -/
def Region.holds (r : Region) (a : Word) : Bool := r.first ≤ a && a ≤ r.last

/-- The kind of an address: that of the first region that holds it; RAM if none does (R52, log 5). -/
def Env.kindAt (e : Env) (a : Word) : MemKind :=
  match e.memMap.find? (fun r => r.holds a) with
  | some r => r.kind
  | none => .ram

/-- The kind of an address in this state's map (R52). -/
def State.kindAt (s : State) (a : Word) : MemKind := s.env.kindAt a

/-! ### What the environment is asked and told -/

/-- A fresh free byte (R30, R52, R53; log 16). -/
def Env.draw (e : Env) : Byte × Env := (Config.freeByte e.draws, { e with draws := e.draws + 1 })

/-- Record an event, newest first (R277, log 17). -/
def Env.tell (e : Env) (v : Event) : Env := { e with events := v :: e.events }

/-- The environment's next answer from a list of answers; a fresh free byte where the list has ended (U3, log 16). -/
def Env.nextAnswer (e : Env) (answers : List Byte) : Byte := answers.headD e.draw.1

/-- A read of a device address (R52, log 7). -/
def Env.readDevice (e : Env) (a : Word) : Byte × Env :=
  let v := e.nextAnswer e.deviceAnswers
  (v, { (e.draw.2.tell (.deviceRead a v)) with deviceAnswers := e.deviceAnswers.tail })

/-- `IoRead(port)` (R53, log 8). -/
def Env.readPort (e : Env) (port : Byte) : Byte × Env :=
  let v := e.nextAnswer e.portAnswers
  (v, { (e.draw.2.tell (.portRead port v)) with portAnswers := e.portAnswers.tail })

/-- `IntEnv.acknowledge()` (R250, log 11). -/
def Env.acknowledge (e : Env) : Byte × Env :=
  let v := e.nextAnswer e.ackAnswers
  (v, { (e.draw.2.tell (.acknowledge v)) with ackAnswers := e.ackAnswers.tail })

/-- What the environment presents in this step; quiet after the last entry (R246, log 9). -/
def Env.input (e : Env) : StepInput := e.inputs.headD .quiet

/-- The step is over: the next entry is the next step's. -/
def Env.nextInput (e : Env) : Env := { e with inputs := e.inputs.tail }

/-- What a byte read answers and does to the platform, given the cell's content (R52, R57). -/
def Env.read (e : Env) (a : Word) (content : Byte) : Byte × Env :=
  match e.kindAt a with
  | .ram => (content, e)
  | .rom => (content, e)
  | .unpopulated => e.draw
  | .device => e.readDevice a

/-- What a byte write does to the platform (R52). -/
def Env.write (e : Env) (a : Word) (v : Byte) : Env :=
  match e.kindAt a with
  | .ram => e
  | .rom => e
  | .unpopulated => e
  | .device => e.tell (.deviceWrite a v)

/-! ### Accesses -/

/-- `MemRead(a, 1)` (R8, R52). -/
def State.memRead (s : State) (a : Word) : Byte × State :=
  ((s.env.read a (s.byteAt a)).1, { s with env := (s.env.read a (s.byteAt a)).2 })

/-- The memory after `MemWrite(a, 1, v)`: only RAM takes the byte (R52). -/
def State.memAfterWrite (s : State) (a : Word) (v : Byte) : Memory :=
  match s.kindAt a with
  | .ram => s.mem.store a.toNat v
  | .rom => s.mem
  | .unpopulated => s.mem
  | .device => s.mem

/-- `MemWrite(a, 1, v)` (R8, R52). -/
def State.memWrite (s : State) (a : Word) (v : Byte) : State :=
  { s with mem := s.memAfterWrite a v, env := s.env.write a v }

/-- `MemRead(a, 2)`: the byte at `a` first, low byte at the lower address (R8, R54). -/
def State.memRead16 (s : State) (a : Word) : Word × State :=
  let lo := s.memRead a
  let hi := lo.2.memRead (a + 1)
  (wordOf hi.1 lo.1, hi.2)

/-- `MemWrite(a, 2, w)`: the low byte to `a` first (R8, R54). -/
def State.memWrite16 (s : State) (a w : Word) : State :=
  (s.memWrite a (loByte w)).memWrite (a + 1) (hiByte w)

/-- `IoRead(port)` (R8, R53). -/
def State.ioRead (s : State) (port : Byte) : Byte × State :=
  ((s.env.readPort port).1, { s with env := (s.env.readPort port).2 })

/-- `IoWrite(port, v)` (R8, R53): changes no processor state. -/
def State.ioWrite (s : State) (port v : Byte) : State := { s with env := s.env.tell (.portWrite port v) }

/-- A fresh free byte (log 16). -/
def State.draw (s : State) : Byte × State := (s.env.draw.1, { s with env := s.env.draw.2 })

/-! ### PC and the stack -/

/-- Advance pc past an instruction of `n` bytes, modulo 2^16 (R12, R25). -/
def State.advance (s : State) (n : Word) : State := { s with pc := s.pc + n }

/-- Continue at an address. -/
def State.setPc (s : State) (a : Word) : State := { s with pc := a }

/-- Load SP. -/
def State.setSp (s : State) (a : Word) : State := { s with sp := a }

/-- Push two bytes: the high one to SP - 1, then the low one to SP - 2, then SP is lowered by two (R24, R180 f). -/
def State.pushBytes (s : State) (hi lo : Byte) : State :=
  ((s.memWrite (s.sp - 1) hi).memWrite (s.sp - 2) lo).setSp (s.sp - 2)

/-- Push a 16-bit value (R180 f, R233). -/
def State.pushWord (s : State) (w : Word) : State := s.pushBytes (hiByte w) (loByte w)

/-- Pop a 16-bit value: low byte from SP, high byte from SP + 1, then SP is raised by two (R180 f, R235). -/
def State.popWord (s : State) : Word × State :=
  ((s.memRead16 s.sp).1, (s.memRead16 s.sp).2.setSp (s.sp + 2))

/-! ### Interrupts -/

/-- A rising edge sets its latch, whatever the masks and INTE are (R35, R36, R243, R246). -/
def IntCtl.latch (c : IntCtl) (p : PinSample) : IntCtl :=
  { c with r75 := c.r75 || p.r75Edge, trapff := c.trapff || p.trapEdge }

/-- Which input is recognised at a sampling point, the latches being set: TRAP first, then RST 7.5, RST 6.5, RST 5.5,
INTR, the last four only with INTE = 1 and outside the EI delay (R246, R247 b). -/
def IntCtl.recognise (c : IntCtl) (p : PinSample) : Option Interrupt :=
  if c.trapff && p.trapLevel then some .trap
  else if c.inte && !c.eiDelay then
    if c.r75 && !c.m75 then some .rst75
    else if p.r65Level && !c.m65 then some .rst65
    else if p.r55Level && !c.m55 then some .rst55
    else if p.intrLevel then some .intr
    else none
  else none

/-- What acceptance does to the interrupt control state: TRAP saves INTE in trap_ie and clears its latch, RST 7.5
clears its latch, and INTE is cleared by all five (R248, R250). -/
def IntCtl.accept (c : IntCtl) (x : Interrupt) : IntCtl :=
  match x with
  | .trap => { c with trapIe := some c.inte, trapff := false, inte := false }
  | .rst75 => { c with r75 := false, inte := false }
  | .rst65 => { c with inte := false }
  | .rst55 => { c with inte := false }
  | .intr => { c with inte := false }

/-- Push pc itself and continue at an entry (R248; R250: pc, not pc + 1 or pc + 3). -/
def State.enter (s : State) (entry : Word) : State := (s.pushWord s.pc).setPc entry

/-- The interrupt acknowledge of INTR: RST n or CALL from the device, with pc held (R250). Any other byte is outside
the spec (U6, log 11). -/
def State.acknowledgeIntr (s : State) : StepOutcome :=
  let first := s.env.acknowledge
  let s1 : State := { s with env := first.2 }
  if (first.1.extractLsb' 6 2 : BitVec 2) = 0b11 ∧ (first.1.extractLsb' 0 3 : BitVec 3) = 0b111 then
    .next (s1.enter ((first.1.extractLsb' 3 3 : BitVec 3).setWidth 16 * 8))
  else if first.1 = 0xCD then
    let lo := s1.env.acknowledge
    let hi := lo.2.acknowledge
    .next ({ s1 with env := hi.2 }.enter (wordOf hi.1 lo.1))
  else .refused (.acknowledgeByte first.1)

/-- `take(X)`: taking an interrupt (R248; R250 for INTR; R251: it ends the halt state). What is saved is pc, on the
stack; the flags, registers, masks and SOD do not change. -/
def State.takeInterrupt (s : State) (x : Interrupt) : StepOutcome :=
  let s1 : State := { s with int := s.int.accept x, halted := false }
  match x with
  | .trap => .next (s1.enter 0x0024)
  | .rst75 => .next (s1.enter 0x003C)
  | .rst65 => .next (s1.enter 0x0034)
  | .rst55 => .next (s1.enter 0x002C)
  | .intr => s1.acknowledgeIntr

/-- The return from a subroutine or an interrupt routine: pop pc and restore nothing else (R200, R252). -/
def State.returnFromStack (s : State) : State := s.popWord.2.setPc s.popWord.1

/-- `sample()`: the sampling point at the end of a step (R246). It clears ei_delay; at most one interrupt is taken. -/
def State.sampleInterrupts (s : State) : StepOutcome :=
  let pins := s.env.input.pins
  let latched := s.int.latch pins
  let s1 : State := { s with int := { latched with eiDelay := false }, env := s.env.nextInput }
  match latched.recognise pins with
  | some x => s1.takeInterrupt x
  | none => .next s1

/-! ### Serial output and RESET -/

/-- Load the SOD latch; a change is seen outside (R37, R277). -/
def State.setSod (s : State) (v : Bool) : State :=
  { s with sod := v, env := if s.sod = v then s.env else s.env.tell (.sodChange v) }

/-- The RESET event (R270): the fixed values of R41, a fresh free value for each register and flag (log 3), memory
untouched. The pins are not sampled; the step's input entry is used up (log 20). -/
def State.resetEvent (s : State) : State :=
  let n := s.env.draws
  let t := s.setSod false
  { t with
    regs := { a := Config.freeByte n, b := Config.freeByte (n + 1), c := Config.freeByte (n + 2),
              d := Config.freeByte (n + 3), e := Config.freeByte (n + 4), h := Config.freeByte (n + 5),
              l := Config.freeByte (n + 6) }
    flags := { s := (Config.freeByte (n + 7)).getLsbD 7, z := (Config.freeByte (n + 7)).getLsbD 6,
               ac := (Config.freeByte (n + 7)).getLsbD 4, p := (Config.freeByte (n + 7)).getLsbD 2,
               cy := (Config.freeByte (n + 7)).getLsbD 0 }
    sp := Config.freeWord n
    pc := 0
    int := .reset
    halted := false
    env := { t.env.nextInput with draws := n + 8 } }

end Sys2Proof.Machine
end

