-- ==== Sys2Proof/Machine/Operands.lean ====
section
/-! DEFINITION. The operand forms: registers, register pairs and the memory operand M (spec/00_scope R7,
spec/10_state R22, R23). The immediate operands stand in the instruction. -/

namespace Sys2Proof.Machine

/-- `x[i]`: read a register (R7, R74). -/
def Regs.get (x : Regs) : Reg → Byte
  | .b => x.b
  | .c => x.c
  | .d => x.d
  | .e => x.e
  | .h => x.h
  | .l => x.l
  | .a => x.a

/-- `x[i] <- v`: write a register (R7, R74). -/
def Regs.set (x : Regs) (r : Reg) (v : Byte) : Regs :=
  match r with
  | .b => { x with b := v }
  | .c => { x with c := v }
  | .d => { x with d := v }
  | .e => { x with e := v }
  | .h => { x with h := v }
  | .l => { x with l := v }
  | .a => { x with a := v }

/-- Read a register of the machine (R7). -/
def State.reg (s : State) (r : Reg) : Byte := s.regs.get r

/-- Write a register of the machine (R7). -/
def State.setReg (s : State) (r : Reg) (v : Byte) : State := { s with regs := s.regs.set r v }

/-- `rp[j]`: read a pair, the first-named register the high byte, or SP (R7, R22). -/
def State.pair (s : State) : RegPair → Word
  | .bc => wordOf s.regs.b s.regs.c
  | .de => wordOf s.regs.d s.regs.e
  | .hl => wordOf s.regs.h s.regs.l
  | .sp => s.sp

/-- `rp[j] <- w`: write both halves of a pair, or SP (R7, R22). -/
def State.setPair (s : State) (p : RegPair) (w : Word) : State :=
  match p with
  | .bc => { s with regs := { s.regs with b := hiByte w, c := loByte w } }
  | .de => { s with regs := { s.regs with d := hiByte w, e := loByte w } }
  | .hl => { s with regs := { s.regs with h := hiByte w, l := loByte w } }
  | .sp => s.setSp w

/-- HL, the address of the memory operand (R7, R23). -/
def State.hl (s : State) : Word := wordOf s.regs.h s.regs.l

/-- Read the operand M: the memory byte at HL (R23). -/
def State.readM (s : State) : Byte × State := s.memRead s.hl

/-- Write the operand M (R23). -/
def State.writeM (s : State) (v : Byte) : State := s.memWrite s.hl v

/-- Write the flags. -/
def State.setFlags (s : State) (f : Flags) : State := { s with flags := f }

end Sys2Proof.Machine
end

