-- ==== Sys2Proof/Machine/Flags.lean ====
section
/-! DEFINITION. The flag computations (spec/00_scope R9 to R11, spec/10_state R28 to R30, spec/41_arithmetic R129,
spec/43_branch R181). -/

namespace Sys2Proof.Machine

/-- `parity_even(v)`: the number of 1 bits is even (R9). -/
def parityEven (v : Byte) : Bool :=
  !(v.getLsbD 0 ^^ v.getLsbD 1 ^^ v.getLsbD 2 ^^ v.getLsbD 3 ^^
    v.getLsbD 4 ^^ v.getLsbD 5 ^^ v.getLsbD 6 ^^ v.getLsbD 7)

/-- `set_SZP(v)`: S, Z and P from a result (R9). -/
def Flags.setSZP (f : Flags) (v : Byte) : Flags :=
  { f with s := v.getLsbD 7, z := v == 0, p := parityEven v }

/-- A result with its carries: the triple (r, cy, ac) of R10 and R11. -/
structure AluResult where
  r : Byte
  cy : Bool
  ac : Bool
  deriving DecidableEq, Repr

/-- A bit as a number of `w` bits (R6, zext). -/
def zextBit (w : Nat) (b : Bool) : BitVec w := (BitVec.ofBool b).setWidth w

/-- The low nibble, widened to 5 bits (R10). -/
def nibble5 (v : Byte) : BitVec 5 := (v.extractLsb' 0 4).setWidth 5

/-- `add8(a, b, cin)` (R10). -/
def add8 (a b : Byte) (cin : Bool) : AluResult :=
  let s9 : BitVec 9 := a.setWidth 9 + b.setWidth 9 + zextBit 9 cin
  { r := s9.extractLsb' 0 8
    cy := s9.getLsbD 8
    ac := decide (15 < (nibble5 a + nibble5 b + zextBit 5 cin).toNat) }

/-- `sub8(a, b, bin)`: the addition of the complement; CY is inverted into a borrow, AC is not (R11). -/
def sub8 (a b : Byte) (bin : Bool) : AluResult :=
  let nb := ~~~b
  let s9 : BitVec 9 := a.setWidth 9 + nb.setWidth 9 + zextBit 9 (!bin)
  { r := s9.extractLsb' 0 8
    cy := !s9.getLsbD 8
    ac := decide (15 < (nibble5 a + nibble5 nb + zextBit 5 (!bin)).toNat) }

/-- All five flags from an addition, subtraction or compare (R29). -/
def Flags.ofAlu (x : AluResult) : Flags :=
  { s := x.r.getLsbD 7, z := x.r == 0, ac := x.ac, p := parityEven x.r, cy := x.cy }

/-- INR and DCR: S, Z, P and AC from the result, CY left (R29, R136, R139). -/
def Flags.ofIncDec (f : Flags) (x : AluResult) : Flags := { f.setSZP x.r with ac := x.ac }

/-- The logical operations: S, Z, P from the result, CY = 0, AC as given: 1 for AND, 0 for XOR and OR (R29, R150 b). -/
def Flags.ofLogic (v : Byte) (ac : Bool) : Flags :=
  { s := v.getLsbD 7, z := v == 0, ac := ac, p := parityEven v, cy := false }

/-- CY alone (R29: DAD, the rotates, STC, CMC). -/
def Flags.setCy (f : Flags) (cy : Bool) : Flags := { f with cy := cy }

/-- The flag byte S Z x AC x P x CY; the three undefined bits are those of `undefBits` (R30). -/
def Flags.toByte (f : Flags) (undefBits : Byte) : Byte :=
  BitVec.ofBool f.s ++ BitVec.ofBool f.z ++ BitVec.ofBool (undefBits.getLsbD 5) ++ BitVec.ofBool f.ac ++
    BitVec.ofBool (undefBits.getLsbD 3) ++ BitVec.ofBool f.p ++ BitVec.ofBool (undefBits.getLsbD 1) ++
    BitVec.ofBool f.cy

/-- The five flags of a popped flag byte; bits 5, 3 and 1 are ignored (R30, R236). -/
def Flags.ofByte (v : Byte) : Flags :=
  { s := v.getLsbD 7, z := v.getLsbD 6, ac := v.getLsbD 4, p := v.getLsbD 2, cy := v.getLsbD 0 }

/-- DAA's correction byte: 06H for the low digit, 60H for the high digit, both tests on the digits before the
correction (R129). -/
def daaCorrection (a : Byte) (f : Flags) : Byte :=
  let lo := (a.extractLsb' 0 4).toNat
  let hi := (a.extractLsb' 4 4).toNat
  (if 9 < lo ∨ f.ac then 0x06 else 0x00) |||
    (if 9 < hi ∨ f.cy ∨ (9 ≤ hi ∧ 9 < lo) then 0x60 else 0x00)

/-- Whether DAA leaves CY set: it sets CY when it adds 60H and never clears it (R129). -/
def daaCarry (a : Byte) (f : Flags) : Bool :=
  let lo := (a.extractLsb' 0 4).toNat
  let hi := (a.extractLsb' 4 4).toNat
  if 9 < hi ∨ f.cy ∨ (9 ≤ hi ∧ 9 < lo) then true else f.cy

/-- The condition holds of the flags (R76, R181). -/
def condHolds (k : Cond) (f : Flags) : Bool :=
  match k with
  | .nz => !f.z
  | .z => f.z
  | .nc => !f.cy
  | .c => f.cy
  | .po => !f.p
  | .pe => f.p
  | .p => !f.s
  | .m => f.s

end Sys2Proof.Machine
end

