-- ==== Sys2Proof/Machine/Arithmetic.lean ====
section
/-! DEFINITION. The arithmetic instructions (spec/41_arithmetic R120 to R141). -/

namespace Sys2Proof.Machine

/-- A and all five flags from a result (R120). -/
def State.aluToA (s : State) (x : AluResult) : State := (s.setReg .a x.r).setFlags (.ofAlu x)

/-- A <- A + v + cin (R122 to R127). -/
def State.addToA (s : State) (v : Byte) (cin : Bool) : State := s.aluToA (add8 (s.reg .a) v cin)

/-- A <- A - v - bin (R130 to R135). -/
def State.subFromA (s : State) (v : Byte) (bin : Bool) : State := s.aluToA (sub8 (s.reg .a) v bin)

/-- ADD r (R122). -/
def execAddR (src : Reg) (s : State) : StepOutcome := .next ((s.addToA (s.reg src) false).advance 1)

/-- ADD M (R123). -/
def execAddM (s : State) : StepOutcome := .next ((s.readM.2.addToA s.readM.1 false).advance 1)

/-- ADC r (R124). -/
def execAdcR (src : Reg) (s : State) : StepOutcome := .next ((s.addToA (s.reg src) s.flags.cy).advance 1)

/-- ADC M (R125). -/
def execAdcM (s : State) : StepOutcome := .next ((s.readM.2.addToA s.readM.1 s.flags.cy).advance 1)

/-- ADI d8 (R126). -/
def execAdi (d8 : Byte) (s : State) : StepOutcome := .next ((s.addToA d8 false).advance 2)

/-- ACI d8 (R127). -/
def execAci (d8 : Byte) (s : State) : StepOutcome := .next ((s.addToA d8 s.flags.cy).advance 2)

/-- DAD rp: HL <- HL + rp, CY the carry out of bit 15 (R128). -/
def execDad (pair : RegPair) (s : State) : StepOutcome :=
  let s17 : BitVec 17 := s.hl.setWidth 17 + (s.pair pair).setWidth 17
  .next (((s.setPair .hl (s17.extractLsb' 0 16)).setFlags (s.flags.setCy (s17.getLsbD 16))).advance 1)

/-- DAA (R129): AC is the carry out of bit 3 of the adjusting addition. -/
def execDaa (s : State) : StepOutcome :=
  let x := add8 (s.reg .a) (daaCorrection (s.reg .a) s.flags) false
  .next (((s.setReg .a x.r).setFlags (.ofAlu { x with cy := daaCarry (s.reg .a) s.flags })).advance 1)

/-- SUB r (R130). -/
def execSubR (src : Reg) (s : State) : StepOutcome := .next ((s.subFromA (s.reg src) false).advance 1)

/-- SUB M (R131). -/
def execSubM (s : State) : StepOutcome := .next ((s.readM.2.subFromA s.readM.1 false).advance 1)

/-- SBB r (R132). -/
def execSbbR (src : Reg) (s : State) : StepOutcome := .next ((s.subFromA (s.reg src) s.flags.cy).advance 1)

/-- SBB M (R133). -/
def execSbbM (s : State) : StepOutcome := .next ((s.readM.2.subFromA s.readM.1 s.flags.cy).advance 1)

/-- SUI d8 (R134). -/
def execSui (d8 : Byte) (s : State) : StepOutcome := .next ((s.subFromA d8 false).advance 2)

/-- SBI d8 (R135). -/
def execSbi (d8 : Byte) (s : State) : StepOutcome := .next ((s.subFromA d8 s.flags.cy).advance 2)

/-- INR r (R136). CY is not written. -/
def execInrR (dst : Reg) (s : State) : StepOutcome :=
  let x := add8 (s.reg dst) 0x01 false
  .next (((s.setReg dst x.r).setFlags (s.flags.ofIncDec x)).advance 1)

/-- INR M: one read, then one write, of the byte at HL (R137). -/
def execInrM (s : State) : StepOutcome :=
  let x := add8 s.readM.1 0x01 false
  .next (((s.readM.2.writeM x.r).setFlags (s.flags.ofIncDec x)).advance 1)

/-- INX rp (R138). No flag is written. -/
def execInx (pair : RegPair) (s : State) : StepOutcome := .next ((s.setPair pair (s.pair pair + 1)).advance 1)

/-- DCR r (R139). CY is not written. -/
def execDcrR (dst : Reg) (s : State) : StepOutcome :=
  let x := sub8 (s.reg dst) 0x01 false
  .next (((s.setReg dst x.r).setFlags (s.flags.ofIncDec x)).advance 1)

/-- DCR M: one read, then one write, of the byte at HL (R140). -/
def execDcrM (s : State) : StepOutcome :=
  let x := sub8 s.readM.1 0x01 false
  .next (((s.readM.2.writeM x.r).setFlags (s.flags.ofIncDec x)).advance 1)

/-- DCX rp (R141). No flag is written. -/
def execDcx (pair : RegPair) (s : State) : StepOutcome := .next ((s.setPair pair (s.pair pair - 1)).advance 1)

end Sys2Proof.Machine
end

