-- ==== Sys2Proof/Machine/Branch.lean ====
section
/-! DEFINITION. The branch instructions (spec/43_branch R180 to R211). None changes a flag; every target is an absolute
16-bit address; the return address lies on the stack (R180). -/

namespace Sys2Proof.Machine

/-- A conditional jump: the target if the condition holds, else past the three bytes (R180 h, R183 to R190). -/
def State.jumpIf (s : State) (k : Cond) (a16 : Word) : State := if condHolds k s.flags then s.setPc a16 else s.advance 3

/-- A call with return address `ret` (R180 e, f; R191). -/
def State.callTo (s : State) (ret target : Word) : State := (s.pushWord ret).setPc target

/-- A conditional call (R180 h, R192 to R199). -/
def State.callIf (s : State) (k : Cond) (a16 : Word) : State :=
  if condHolds k s.flags then s.callTo (s.pc + 3) a16 else s.advance 3

/-- A conditional return (R180 h, R201 to R208). -/
def State.returnIf (s : State) (k : Cond) : State := if condHolds k s.flags then s.returnFromStack else s.advance 1

/-- JMP a16 (R182). -/
def execJmp (a16 : Word) (s : State) : StepOutcome := .next (s.setPc a16)

/-- JNZ a16 (R183). -/
def execJnz (a16 : Word) (s : State) : StepOutcome := .next (s.jumpIf .nz a16)

/-- JZ a16 (R184). -/
def execJz (a16 : Word) (s : State) : StepOutcome := .next (s.jumpIf .z a16)

/-- JNC a16 (R185). -/
def execJnc (a16 : Word) (s : State) : StepOutcome := .next (s.jumpIf .nc a16)

/-- JC a16 (R186). -/
def execJc (a16 : Word) (s : State) : StepOutcome := .next (s.jumpIf .c a16)

/-- JPO a16 (R187). -/
def execJpo (a16 : Word) (s : State) : StepOutcome := .next (s.jumpIf .po a16)

/-- JPE a16 (R188). -/
def execJpe (a16 : Word) (s : State) : StepOutcome := .next (s.jumpIf .pe a16)

/-- JP a16 (R189). -/
def execJp (a16 : Word) (s : State) : StepOutcome := .next (s.jumpIf .p a16)

/-- JM a16 (R190). -/
def execJm (a16 : Word) (s : State) : StepOutcome := .next (s.jumpIf .m a16)

/-- CALL a16: the return address is pc + 3 (R191). -/
def execCall (a16 : Word) (s : State) : StepOutcome := .next (s.callTo (s.pc + 3) a16)

/-- CNZ a16 (R192). -/
def execCnz (a16 : Word) (s : State) : StepOutcome := .next (s.callIf .nz a16)

/-- CZ a16 (R193). -/
def execCz (a16 : Word) (s : State) : StepOutcome := .next (s.callIf .z a16)

/-- CNC a16 (R194). -/
def execCnc (a16 : Word) (s : State) : StepOutcome := .next (s.callIf .nc a16)

/-- CC a16 (R195). -/
def execCc (a16 : Word) (s : State) : StepOutcome := .next (s.callIf .c a16)

/-- CPO a16 (R196). -/
def execCpo (a16 : Word) (s : State) : StepOutcome := .next (s.callIf .po a16)

/-- CPE a16 (R197). -/
def execCpe (a16 : Word) (s : State) : StepOutcome := .next (s.callIf .pe a16)

/-- CP a16 (R198). -/
def execCp (a16 : Word) (s : State) : StepOutcome := .next (s.callIf .p a16)

/-- CM a16 (R199). -/
def execCm (a16 : Word) (s : State) : StepOutcome := .next (s.callIf .m a16)

/-- RET (R200). -/
def execRet (s : State) : StepOutcome := .next s.returnFromStack

/-- RNZ (R201). -/
def execRnz (s : State) : StepOutcome := .next (s.returnIf .nz)

/-- RZ (R202). -/
def execRz (s : State) : StepOutcome := .next (s.returnIf .z)

/-- RNC (R203). -/
def execRnc (s : State) : StepOutcome := .next (s.returnIf .nc)

/-- RC (R204). -/
def execRc (s : State) : StepOutcome := .next (s.returnIf .c)

/-- RPO (R205). -/
def execRpo (s : State) : StepOutcome := .next (s.returnIf .po)

/-- RPE (R206). -/
def execRpe (s : State) : StepOutcome := .next (s.returnIf .pe)

/-- RP (R207). -/
def execRp (s : State) : StepOutcome := .next (s.returnIf .p)

/-- RM (R208). -/
def execRm (s : State) : StepOutcome := .next (s.returnIf .m)

/-- RST n: a one-byte call to 8 x n; INTE and the masks are left (R209). -/
def execRst (n : BitVec 3) (s : State) : StepOutcome := .next (s.callTo (s.pc + 1) (n.setWidth 16 * 8))

/-- PCHL (R210). -/
def execPchl (s : State) : StepOutcome := .next (s.setPc s.hl)

end Sys2Proof.Machine
end

