-- ==== Sys2Proof/Machine/Control.lean ====
section
/-! DEFINITION. The control instructions (spec/44_control R220 to R225). None changes a flag or accesses memory. -/

namespace Sys2Proof.Machine

/-- NOP (R220). -/
def execNop (s : State) : StepOutcome := .next (s.advance 1)

/-- HLT: pc is past the HLT while halted (R221). -/
def execHlt (s : State) : StepOutcome := .next { (s.advance 1) with halted := true }

/-- EI: the delay is consumed by the sampling at the end of this same step (R222). -/
def execEi (s : State) : StepOutcome :=
  .next { (s.advance 1) with int := { s.int with inte := true, eiDelay := true } }

/-- DI (R223). -/
def execDi (s : State) : StepOutcome := .next { (s.advance 1) with int := { s.int with inte := false } }

/-- SIM's effect on the masks and the RST 7.5 latch, of the command byte: bit 3 lets bits 2 to 0 into the masks, bit 4
clears R75 (R224). -/
def IntCtl.sim (c : IntCtl) (v : Byte) : IntCtl :=
  { c with
    m55 := if v.getLsbD 3 then v.getLsbD 0 else c.m55
    m65 := if v.getLsbD 3 then v.getLsbD 1 else c.m65
    m75 := if v.getLsbD 3 then v.getLsbD 2 else c.m75
    r75 := if v.getLsbD 4 then false else c.r75 }

/-- SIM: the command byte is A; bit 6 lets bit 7 into SOD; bit 5 is ignored (R224, U7). -/
def execSim (s : State) : StepOutcome :=
  let v := s.reg .a
  let t := if v.getLsbD 6 then s.setSod (v.getLsbD 7) else s
  .next { (t.advance 1) with int := s.int.sim v }

/-- The byte RIM leaves in A (R225): SID, R75, the RST 6.5 and RST 5.5 pins, IE, M75, M65, M55. IE is INTE, or on the
first RIM after a TRAP the INTE of before it (R39 b). -/
def IntCtl.rimByte (c : IntCtl) (x : StepInput) (sid : Bool) : Byte :=
  BitVec.ofBool sid ++ BitVec.ofBool c.r75 ++ BitVec.ofBool x.rst65Pin ++ BitVec.ofBool x.rst55Pin ++
    BitVec.ofBool (c.trapIe.getD c.inte) ++ BitVec.ofBool c.m75 ++ BitVec.ofBool c.m65 ++ BitVec.ofBool c.m55

/-- RIM (R225). It changes no interrupt state but trap_ie. Where the platform gives SID no value the bit is free
(U8, log 10). -/
def execRim (s : State) : StepOutcome :=
  let x := s.env.input
  let sid := x.sid.getD (s.draw.1.getLsbD 0)
  .next (({ s.draw.2 with int := { s.int with trapIe := none } }.setReg .a (s.int.rimByte x sid)).advance 1)

end Sys2Proof.Machine
end

