-- ==== Sys2Proof/Machine/DataTransfer.lean ====
section
/-! DEFINITION. The data transfer instructions (spec/40_data_transfer R100 to R113). None changes a flag (R100). -/

namespace Sys2Proof.Machine

/-- MOV r1, r2 (R101). -/
def execMovRR (dst src : Reg) (s : State) : StepOutcome := .next ((s.setReg dst (s.reg src)).advance 1)

/-- MOV r, M (R102). The address is formed before the register is written. -/
def execMovRM (dst : Reg) (s : State) : StepOutcome := .next ((s.readM.2.setReg dst s.readM.1).advance 1)

/-- MOV M, r (R103). -/
def execMovMR (src : Reg) (s : State) : StepOutcome := .next ((s.writeM (s.reg src)).advance 1)

/-- MVI r, d8 (R104). -/
def execMviR (dst : Reg) (d8 : Byte) (s : State) : StepOutcome := .next ((s.setReg dst d8).advance 2)

/-- MVI M, d8 (R105). -/
def execMviM (d8 : Byte) (s : State) : StepOutcome := .next ((s.writeM d8).advance 2)

/-- XCHG (R106). -/
def execXchg (s : State) : StepOutcome :=
  .next (((s.setPair .hl (s.pair .de)).setPair .de (s.pair .hl)).advance 1)

/-- LDA a16 (R107). -/
def execLda (a16 : Word) (s : State) : StepOutcome :=
  .next (((s.memRead a16).2.setReg .a (s.memRead a16).1).advance 3)

/-- LDAX rp (R108). -/
def execLdax (pair : RegPair) (s : State) : StepOutcome :=
  .next (((s.memRead (s.pair pair)).2.setReg .a (s.memRead (s.pair pair)).1).advance 1)

/-- LXI rp, d16 (R109). -/
def execLxi (pair : RegPair) (d16 : Word) (s : State) : StepOutcome := .next ((s.setPair pair d16).advance 3)

/-- STA a16 (R110). -/
def execSta (a16 : Word) (s : State) : StepOutcome := .next ((s.memWrite a16 (s.reg .a)).advance 3)

/-- STAX rp (R111). -/
def execStax (pair : RegPair) (s : State) : StepOutcome :=
  .next ((s.memWrite (s.pair pair) (s.reg .a)).advance 1)

/-- LHLD a16: L from a16, H from a16 + 1 (R112). -/
def execLhld (a16 : Word) (s : State) : StepOutcome :=
  .next (((s.memRead16 a16).2.setPair .hl (s.memRead16 a16).1).advance 3)

/-- SHLD a16: L to a16, H to a16 + 1 (R113). -/
def execShld (a16 : Word) (s : State) : StepOutcome := .next ((s.memWrite16 a16 s.hl).advance 3)

end Sys2Proof.Machine
end

