-- ==== Sys2Proof/Machine/IoStack.lean ====
section
/-! DEFINITION. The input, output and stack instructions (spec/45_io_stack R230 to R238). -/

namespace Sys2Proof.Machine

/-- IN p8: one port read, no flag (R231). -/
def execInPort (p8 : Byte) (s : State) : StepOutcome :=
  .next (((s.ioRead p8).2.setReg .a (s.ioRead p8).1).advance 2)

/-- OUT p8: one port write (R232). -/
def execOutPort (p8 : Byte) (s : State) : StepOutcome := .next ((s.ioWrite p8 (s.reg .a)).advance 2)

/-- PUSH rp (R233). -/
def execPush (pair : RegPair) (s : State) : StepOutcome := .next ((s.pushWord (s.pair pair)).advance 1)

/-- PUSH PSW: A, then the flag byte, whose bits 5, 3 and 1 are a fresh draw (R234, R30, U4; log 12). -/
def execPushPsw (s : State) : StepOutcome :=
  .next ((s.draw.2.pushBytes (s.reg .a) (s.flags.toByte s.draw.1)).advance 1)

/-- POP rp (R235). -/
def execPop (pair : RegPair) (s : State) : StepOutcome :=
  .next ((s.popWord.2.setPair pair s.popWord.1).advance 1)

/-- POP PSW: the flags from the low byte, A from the high byte (R236). -/
def execPopPsw (s : State) : StepOutcome :=
  let w := s.popWord
  .next (((w.2.setReg .a (hiByte w.1)).setFlags (.ofByte (loByte w.1))).advance 1)

/-- XTHL: read SP, read SP + 1, write SP + 1 from H, write SP from L, then load HL (R237, D23, C6). -/
def execXthl (s : State) : StepOutcome :=
  let w := s.memRead16 s.sp
  let t := (w.2.memWrite (s.sp + 1) (s.reg .h)).memWrite s.sp (s.reg .l)
  .next ((t.setPair .hl w.1).advance 1)

/-- SPHL (R238). -/
def execSphl (s : State) : StepOutcome := .next ((s.setSp s.hl).advance 1)

end Sys2Proof.Machine
end

