-- ==== Sys2Proof/Machine/Logical.lean ====
section
/-! DEFINITION. The logical, compare, carry and rotate instructions (spec/42_logical R150 to R169; for CMP and CPI
spec/90_conflicts C1, for ORA M C7). -/

namespace Sys2Proof.Machine

/-- A <- v with the flags of a logical operation (R150 a, b). -/
def State.logicToA (s : State) (v : Byte) (ac : Bool) : State := (s.setReg .a v).setFlags (.ofLogic v ac)

/-- A <- A and v; AC = 1, CY = 0 (R150 b). -/
def State.andToA (s : State) (v : Byte) : State := s.logicToA (s.reg .a &&& v) true

/-- A <- A exclusive-or v; AC = 0, CY = 0 (R150 b). -/
def State.xorToA (s : State) (v : Byte) : State := s.logicToA (s.reg .a ^^^ v) false

/-- A <- A or v; AC = 0, CY = 0 (R150 b). -/
def State.orToA (s : State) (v : Byte) : State := s.logicToA (s.reg .a ||| v) false

/-- The flags of A - v; A is left (R150 c, C1). -/
def State.compareA (s : State) (v : Byte) : State := s.setFlags (.ofAlu (sub8 (s.reg .a) v false))

/-- ANA r (R151). -/
def execAnaR (src : Reg) (s : State) : StepOutcome := .next ((s.andToA (s.reg src)).advance 1)

/-- ANA M (R152). -/
def execAnaM (s : State) : StepOutcome := .next ((s.readM.2.andToA s.readM.1).advance 1)

/-- ANI d8 (R153). -/
def execAni (d8 : Byte) (s : State) : StepOutcome := .next ((s.andToA d8).advance 2)

/-- XRA r (R154). -/
def execXraR (src : Reg) (s : State) : StepOutcome := .next ((s.xorToA (s.reg src)).advance 1)

/-- XRA M (R155). -/
def execXraM (s : State) : StepOutcome := .next ((s.readM.2.xorToA s.readM.1).advance 1)

/-- XRI d8 (R156). -/
def execXri (d8 : Byte) (s : State) : StepOutcome := .next ((s.xorToA d8).advance 2)

/-- ORA r (R157). -/
def execOraR (src : Reg) (s : State) : StepOutcome := .next ((s.orToA (s.reg src)).advance 1)

/-- ORA M (R158, C7). -/
def execOraM (s : State) : StepOutcome := .next ((s.readM.2.orToA s.readM.1).advance 1)

/-- ORI d8 (R159). -/
def execOri (d8 : Byte) (s : State) : StepOutcome := .next ((s.orToA d8).advance 2)

/-- CMP r (R160). -/
def execCmpR (src : Reg) (s : State) : StepOutcome := .next ((s.compareA (s.reg src)).advance 1)

/-- CMP M (R161). -/
def execCmpM (s : State) : StepOutcome := .next ((s.readM.2.compareA s.readM.1).advance 1)

/-- CPI d8 (R162). -/
def execCpi (d8 : Byte) (s : State) : StepOutcome := .next ((s.compareA d8).advance 2)

/-- STC (R163). -/
def execStc (s : State) : StepOutcome := .next ((s.setFlags (s.flags.setCy true)).advance 1)

/-- CMC (R164). -/
def execCmc (s : State) : StepOutcome := .next ((s.setFlags (s.flags.setCy (!s.flags.cy))).advance 1)

/-- CMA (R165). No flag is written. -/
def execCma (s : State) : StepOutcome := .next ((s.setReg .a (~~~s.reg .a)).advance 1)

/-- A rotate's effect: A and CY (R150 d). -/
def State.rotateA (s : State) (v : Byte) (cy : Bool) : State := (s.setReg .a v).setFlags (s.flags.setCy cy)

/-- RLC: old bit 7 to bit 0 and to CY (R166). -/
def execRlc (s : State) : StepOutcome :=
  let a := s.reg .a
  .next ((s.rotateA ((a.extractLsb' 0 7 : BitVec 7) ++ BitVec.ofBool (a.getLsbD 7)) (a.getLsbD 7)).advance 1)

/-- RRC: old bit 0 to bit 7 and to CY (R167). -/
def execRrc (s : State) : StepOutcome :=
  let a := s.reg .a
  .next ((s.rotateA (BitVec.ofBool (a.getLsbD 0) ++ (a.extractLsb' 1 7 : BitVec 7)) (a.getLsbD 0)).advance 1)

/-- RAL: old CY to bit 0, old bit 7 to CY (R168). -/
def execRal (s : State) : StepOutcome :=
  let a := s.reg .a
  .next ((s.rotateA ((a.extractLsb' 0 7 : BitVec 7) ++ BitVec.ofBool s.flags.cy) (a.getLsbD 7)).advance 1)

/-- RAR: old CY to bit 7, old bit 0 to CY (R169). -/
def execRar (s : State) : StepOutcome :=
  let a := s.reg .a
  .next ((s.rotateA (BitVec.ofBool s.flags.cy ++ (a.extractLsb' 1 7 : BitVec 7)) (a.getLsbD 0)).advance 1)

end Sys2Proof.Machine
end

