-- ==== Sys2Proof/Machine/Undefined.lean ====
section
/-! DEFINITION. The ten undefined opcode bytes (spec/30_encoding R81, spec/00_scope R13, U1, D7). The spec gives them no
effect at all: "The spec gives them no meaning". Each is refused by name; no state is changed, pc is not advanced. -/

namespace Sys2Proof.Machine

/-- `raise UndefinedOpcode(op)` at the instruction's address (R13, R81). -/
def State.refuseOpcode (s : State) (op : Byte) : StepOutcome := .refused (.undefinedOpcode s.pc op)

/-- Opcode 08H (R81). -/
def execUndef08 (s : State) : StepOutcome := s.refuseOpcode 0x08

/-- Opcode 10H (R81). -/
def execUndef10 (s : State) : StepOutcome := s.refuseOpcode 0x10

/-- Opcode 18H (R81). -/
def execUndef18 (s : State) : StepOutcome := s.refuseOpcode 0x18

/-- Opcode 28H (R81). -/
def execUndef28 (s : State) : StepOutcome := s.refuseOpcode 0x28

/-- Opcode 38H (R81). -/
def execUndef38 (s : State) : StepOutcome := s.refuseOpcode 0x38

/-- Opcode CBH (R81). -/
def execUndefCB (s : State) : StepOutcome := s.refuseOpcode 0xCB

/-- Opcode D9H (R81). -/
def execUndefD9 (s : State) : StepOutcome := s.refuseOpcode 0xD9

/-- Opcode DDH (R81). -/
def execUndefDD (s : State) : StepOutcome := s.refuseOpcode 0xDD

/-- Opcode EDH (R81). -/
def execUndefED (s : State) : StepOutcome := s.refuseOpcode 0xED

/-- Opcode FDH (R81). -/
def execUndefFD (s : State) : StepOutcome := s.refuseOpcode 0xFD

end Sys2Proof.Machine
end

