-- ==== Sys2Proof/Machine/Fetch.lean ====
section
/-! DEFINITION. Fetching an instruction (spec/00_scope R12, spec/20_memory R58, spec/10_state R25), and placing one
where the fetch finds it. -/

namespace Sys2Proof.Machine

/-- The condition of a conditional jump or call (R183 to R190, R192 to R199); none for every other instruction. The
conditional returns have no operand byte, so no fetch depends on theirs. -/
def fetchCondition : Instr → Option Cond
  | .jnz _ | .cnz _ => some .nz
  | .jz _ | .cz _ => some .z
  | .jnc _ | .cnc _ => some .nc
  | .jc _ | .cc _ => some .c
  | .jpo _ | .cpo _ => some .po
  | .jpe _ | .cpe _ => some .pe
  | .jp _ | .cp _ => some .p
  | .jm _ | .cm _ => some .m
  | .movRR _ _ | .movRM _ | .movMR _ | .mviR _ _ | .mviM _ | .xchg | .lda _ | .ldax _ | .lxi _ _ | .sta _
  | .stax _ | .lhld _ | .shld _ | .addR _ | .addM | .adcR _ | .adcM | .adi _ | .aci _ | .dad _ | .daa | .subR _
  | .subM | .sbbR _ | .sbbM | .sui _ | .sbi _ | .inrR _ | .inrM | .inx _ | .dcrR _ | .dcrM | .dcx _ | .anaR _
  | .anaM | .ani _ | .xraR _ | .xraM | .xri _ | .oraR _ | .oraM | .ori _ | .cmpR _ | .cmpM | .cpi _ | .stc
  | .cmc | .cma | .rlc | .rrc | .ral | .rar | .jmp _ | .call _ | .ret | .rnz | .rz | .rnc | .rc | .rpo | .rpe
  | .rp | .rm | .rst _ | .pchl | .nop | .hlt | .ei | .di | .sim | .rim | .inPort _ | .outPort _ | .push _
  | .pushPsw | .pop _ | .popPsw | .xthl | .sphl | .undef08 | .undef10 | .undef18 | .undef28 | .undef38
  | .undefCB | .undefD9 | .undefDD | .undefED | .undefFD => none

/-- A false conditional jump or call, whose byte 3 is not read (R58, R180 h). -/
def skipsByte3 (op : Byte) (f : Flags) : Bool :=
  match fetchCondition (decode op 0 0) with
  | some k => !condHolds k f
  | none => false

/-- Fetch the instruction at pc: the opcode at pc, byte 2 at pc + 1, byte 3 at pc + 2, modulo 2^16, each read only if
the instruction has it and needs it (R12, R25, R58). Where byte 3 is not read, the operand of the instruction that is
answered is made of the cell's content; its condition is false and its meaning does not use it (log 14). -/
def State.fetch (s : State) : Instr × State :=
  let b1 := s.memRead s.pc
  let b2 := b1.2.memRead (s.pc + 1)
  let b3 := b2.2.memRead (s.pc + 2)
  match opcodeLength b1.1 with
  | 1 => (decode b1.1 0 0, b1.2)
  | 2 => (decode b1.1 b2.1 0, b2.2)
  | _ =>
    if skipsByte3 b1.1 s.flags then (decode b1.1 b2.1 (b2.2.byteAt (s.pc + 2)), b2.2)
    else (decode b1.1 b2.1 b3.1, b3.2)

/-- List bytes as the content of the cells from an address on, modulo 2^16. -/
def Memory.load (m : Memory) (a : Word) : List Byte → Memory
  | [] => m
  | v :: vs => Memory.load (m.store a.toNat v) (a + 1) vs

/-- The fetch address lies in RAM or ROM, so that reading it answers the cell's content. -/
def State.stored (s : State) (a : Word) : Bool :=
  match s.kindAt a with
  | .ram => true
  | .rom => true
  | .unpopulated => false
  | .device => false

/-- Place instruction bytes at pc so that the very next step runs them: the cells hold them, the fetch addresses are
memory, the processor is not halted and RESET IN is not asserted in that step (log 18). -/
def State.placeAtPc (s : State) (bytes : List Byte) : State :=
  let plain : Bool := s.stored s.pc && s.stored (s.pc + 1) && s.stored (s.pc + 2)
  { s with
    mem := s.mem.load s.pc bytes
    halted := false
    env :=
      { s.env with
        memMap :=
          if plain then s.env.memMap
          else [{ first := s.pc, last := s.pc, kind := .ram }, { first := s.pc + 1, last := s.pc + 1, kind := .ram },
                { first := s.pc + 2, last := s.pc + 2, kind := .ram }] ++ s.env.memMap
        inputs :=
          match s.env.inputs with
          | [] => []
          | x :: xs => { x with resetIn := false } :: xs } }

end Sys2Proof.Machine
end

