-- ==== Sys2Proof/Machine/Step.lean ====
section
/-! DEFINITION. One step of the machine (spec/00_scope R12). -/

namespace Sys2Proof.Machine

/-- `step()` (R12): RESET comes before everything (R247 a, R270); a halted processor only samples (R38, R251); otherwise
one instruction is fetched and executed whole, and the interrupt inputs are sampled after it (R246). An undefined opcode
gives no next state (R13). -/
def step (s : State) : Host.Outcome State Fault Refusal :=
  if s.env.input.resetIn then .next s.resetEvent
  else if s.halted then s.sampleInterrupts
  else
    match exec s.fetch.1 s.fetch.2 with
    | .next t => t.sampleInterrupts
    | .fault r => .fault r
    | .refused r => .refused r

/-- The state with the table word `w` of `nbits` bits stored where the next step fetches (log 18). -/
def State.withFetchWord (s : State) (nbits w : Nat) : State := s.placeAtPc (tableBytes nbits w)

end Sys2Proof.Machine
end

