-- ==== Sys2Proof/Safety.lean ====
section
/-! DEFINITION. What the claims are stated in: results read off as numbers and bits, what stays the same, what writes
leave in memory and tell the platform, the end of a run (spec/70_reset_and_hazards R276, R277). -/

namespace Sys2Proof.Machine

/-! ### Results -/

/-- How many of the eight bits are 1 (R9). -/
def onesIn (v : Byte) : Nat := ((List.range 8).filter fun k => v.getLsbD k).length

/-- S, Z and P say of the byte `v` what `set_SZP(v)` says (R9): bit 7; whether it is 00H; whether the number of 1 bits
is even. -/
def SignZeroParity (f : Flags) (v : Byte) : Prop :=
  f.s = v.getLsbD 7 ∧ (f.z = true ↔ v = 0x00) ∧ (f.p = true ↔ onesIn v % 2 = 0)

/-- `t` holds A + v + c of `s`: A is the sum modulo 256, CY tells a sum of 256 or more, AC a sum of the low digits of 16
or more, S, Z and P are of the result (R10, R121, R122). -/
def HoldsSum (s t : State) (v : Byte) (c : Bool) : Prop :=
  (t.reg .a).toNat = ((s.reg .a).toNat + v.toNat + c.toNat) % 256 ∧
  (t.flags.cy = true ↔ 256 ≤ (s.reg .a).toNat + v.toNat + c.toNat) ∧
  (t.flags.ac = true ↔ 16 ≤ (s.reg .a).toNat % 16 + v.toNat % 16 + c.toNat) ∧
  SignZeroParity t.flags (t.reg .a)

/-- The flags `f` are those of `a - v - b` with result `r`: r is the difference modulo 256, CY tells a borrow into bit 7
and AC that there is no borrow into bit 3 (R11, R121). -/
def FlagsOfDifference (a v : Byte) (b : Bool) (r : Byte) (f : Flags) : Prop :=
  r.toNat = (a.toNat + 256 - (v.toNat + b.toNat)) % 256 ∧
  (f.cy = true ↔ a.toNat < v.toNat + b.toNat) ∧
  (f.ac = true ↔ v.toNat % 16 + b.toNat ≤ a.toNat % 16) ∧
  SignZeroParity f r

/-- The flags of a logical result: S, Z, P of the result, CY = 0, AC as given (R150 b). -/
def FlagsOfLogic (f : Flags) (r : Byte) (ac : Bool) : Prop :=
  SignZeroParity f r ∧ f.cy = false ∧ f.ac = ac

/-- The four flags other than CY are as they were (R28). -/
def SameFlagsExceptCy (s t : State) : Prop :=
  t.flags.s = s.flags.s ∧ t.flags.z = s.flags.z ∧ t.flags.ac = s.flags.ac ∧ t.flags.p = s.flags.p

/-- What DAA adds to the low digit: 6 if that digit is over 9 or AC is set (R129). -/
def adjustLow (a : Byte) (ac : Bool) : Nat := if 9 < a.toNat % 16 ∨ ac = true then 6 else 0

/-- What DAA adds to the high digit: 60H = 96 if that digit is over 9, or CY is set, or it is 9 and the low one is over 9
(R129). -/
def adjustHigh (a : Byte) (cy : Bool) : Nat :=
  if 9 < a.toNat / 16 ∨ cy = true ∨ (9 ≤ a.toNat / 16 ∧ 9 < a.toNat % 16) then 96 else 0

/-- The byte holds two decimal digits (R129). -/
def isBcd (v : Byte) : Bool := v.toNat / 16 ≤ 9 && v.toNat % 16 ≤ 9

/-- The number that two decimal digits stand for (R129). -/
def bcdValue (v : Byte) : Nat := 10 * (v.toNat / 16) + v.toNat % 16

/-! ### What stays the same, what is written -/

/-- Every register but those in `except` holds what it held (R20). -/
def SameRegsExcept (except : List Reg) (s t : State) : Prop := ∀ r : Reg, r ∉ except → t.reg r = s.reg r

/-- The interrupt and serial state and halted are as they were (R33 to R39). -/
def SameControl (s t : State) : Prop := t.int = s.int ∧ t.sod = s.sod ∧ t.halted = s.halted

/-- What the cell `b` holds after the byte writes `ws`, made in that order from `s`: the last byte written to it if it is
RAM, else what it held (R52). -/
def State.cellAfter (s : State) (ws : List (Word × Byte)) (b : Word) : Byte :=
  match ws.reverse.find? (fun w => decide (w.1 = b)) with
  | some w => if s.kindAt b = .ram then w.2 else s.byteAt b
  | none => s.byteAt b

/-- What the byte writes `ws` tell the devices of the memory map, in order (R52). -/
def Env.deviceWrites (e : Env) (ws : List (Word × Byte)) : List Event :=
  (ws.filter fun w => decide (e.kindAt w.1 = .device)).map fun w => .deviceWrite w.1 w.2

/-- From `s` to `t` the byte writes `ws` are made, in that order, and no other: every cell of the 64 KiB holds what they
leave in it, and the platform is `e` (that of `s`, or what the reads before the writes made of it) with the devices told
(R52, R58). With `ws` empty every cell holds what it held. -/
def Wrote (s t : State) (e : Env) (ws : List (Word × Byte)) : Prop :=
  (∀ b : Word, t.byteAt b = s.cellAfter ws b) ∧
  t.env = { e with events := (e.deviceWrites ws).reverse ++ e.events }

/-- The frame: from `s` to `t` no register outside `except` changes, no interrupt, serial or halt state changes, and
memory and platform change by the byte writes `ws` alone, the platform being `e` before them. Flags, SP and PC are said
beside it. -/
def ChangesOnly (except : List Reg) (e : Env) (ws : List (Word × Byte)) (s t : State) : Prop :=
  SameRegsExcept except s t ∧ SameControl s t ∧ Wrote s t e ws

/-- The 8-bit registers that are the halves of a pair; SP has none (R22). -/
def pairHalves : RegPair → List Reg
  | .bc => [.b, .c]
  | .de => [.d, .e]
  | .hl => [.h, .l]
  | .sp => []

/-- The two byte writes of a push of `hi` and `lo`: `hi` to SP - 1, then `lo` to SP - 2 (R180 f). -/
def State.pushWrites (s : State) (hi lo : Byte) : List (Word × Byte) := [(s.sp - 1, hi), (s.sp - 2, lo)]

/-- The first byte read of a pop: the low byte, at SP (R180 f, R235). -/
def State.topLow (s : State) : Byte := (s.memRead s.sp).1

/-- The second byte read of a pop: the high byte, at SP + 1, after the first (R180 f, R235). -/
def State.topHigh (s : State) : Byte := ((s.memRead s.sp).2.memRead (s.sp + 1)).1

/-- The platform after the two byte reads of a pop. -/
def State.topEnv (s : State) : Env := ((s.memRead s.sp).2.memRead (s.sp + 1)).2.env

/-- The state a sampling point recognises from (R246): the edges have set their latches, ei_delay is cleared, and the
input of the step is used up. -/
def State.sampled (s : State) : State :=
  { s with
    int := { s.int with
      r75 := s.int.r75 || s.env.input.pins.r75Edge
      trapff := s.int.trapff || s.env.input.pins.trapEdge
      eiDelay := false }
    env := { s.env with inputs := s.env.inputs.tail } }

/-! ### Instructions and steps -/

/-- The same instruction executed `n` times, without fetches or sampling between. -/
def execTimes (i : Instr) : Nat → State → StepOutcome
  | 0, s => .next s
  | n + 1, s =>
    match exec i s with
    | .next t => execTimes i n t
    | .fault r => .fault r
    | .refused r => .refused r

/-- TRAP is recognised at this step's sampling point if it comes with the control state `c` (R242, R246). -/
def trapComes (c : IntCtl) (p : PinSample) : Bool := (c.trapff || p.trapEdge) && p.trapLevel

/-- The byte is one of the ten with no documented instruction (R81). -/
def isUndefinedOpcode (op : Byte) : Bool :=
  op ∈ ([0x08, 0x10, 0x18, 0x28, 0x38, 0xCB, 0xD9, 0xDD, 0xED, 0xFD] : List Byte)

/-- The byte is an RST n or the CALL opcode: what a device may answer an interrupt acknowledge with first (R250). -/
def isAcknowledgeByte (v : Byte) : Bool := v &&& 0xC7 == 0xC7 || v == 0xCD

/-- The step fetches an instruction: RESET IN is not asserted and the processor is not halted (R12). -/
def State.fetches (s : State) : Bool := !s.env.input.resetIn && !s.halted

/-- The three bytes from pc on lie in RAM or ROM, where reading them has no side effect (R57). -/
def State.codeStored (s : State) : Bool := s.stored s.pc && s.stored (s.pc + 1) && s.stored (s.pc + 2)

/-- The three bytes from pc on (R25: modulo 2^16). -/
def State.codeBytes (s : State) : List Byte := [s.byteAt s.pc, s.byteAt (s.pc + 1), s.byteAt (s.pc + 2)]

/-- What `step` does with the outcome of an instruction: the sampling of R246 follows a next state. -/
def thenSample : StepOutcome → StepOutcome
  | .next t => t.sampleInterrupts
  | .fault r => .fault r
  | .refused r => .refused r

/-- The instruction writes at least one flag (R29). -/
def writesFlags : Instr → Bool
  | .addR _ | .addM | .adcR _ | .adcM | .adi _ | .aci _ | .dad _ | .daa | .subR _ | .subM | .sbbR _ | .sbbM
  | .sui _ | .sbi _ | .inrR _ | .inrM | .dcrR _ | .dcrM | .anaR _ | .anaM | .ani _ | .xraR _ | .xraM | .xri _
  | .oraR _ | .oraM | .ori _ | .cmpR _ | .cmpM | .cpi _ | .stc | .cmc | .rlc | .rrc | .ral | .rar | .popPsw => true
  | .movRR _ _ | .movRM _ | .movMR _ | .mviR _ _ | .mviM _ | .xchg | .lda _ | .ldax _ | .lxi _ _ | .sta _ | .stax _
  | .lhld _ | .shld _ | .inx _ | .dcx _ | .cma | .jmp _ | .jnz _ | .jz _ | .jnc _ | .jc _ | .jpo _ | .jpe _ | .jp _
  | .jm _ | .call _ | .cnz _ | .cz _ | .cnc _ | .cc _ | .cpo _ | .cpe _ | .cp _ | .cm _ | .ret | .rnz | .rz | .rnc
  | .rc | .rpo | .rpe | .rp | .rm | .rst _ | .pchl | .nop | .hlt | .ei | .di | .sim | .rim | .inPort _ | .outPort _
  | .push _ | .pushPsw | .pop _ | .xthl | .sphl | .undef08 | .undef10 | .undef18 | .undef28 | .undef38 | .undefCB
  | .undefD9 | .undefDD | .undefED | .undefFD => false

/-! ### The end of a run, the invariant -/

/-- From the latches and masks `c` on, no coming step asserts RESET IN and no coming sampling point accepts a request
(R276). After the last input every pin is quiet. -/
def staysHalted : List StepInput → IntCtl → Bool
  | [], c => (c.recognise .quiet).isNone && ({ c with eiDelay := false }.recognise .quiet).isNone
  | x :: xs, c =>
    !x.resetIn && ((c.latch x.pins).recognise x.pins).isNone && staysHalted xs { c.latch x.pins with eiDelay := false }

/-- The run has ended: halted, and the environment raises from then on neither RESET, nor TRAP, nor an enabled maskable
interrupt (R276). -/
def State.runEnded (s : State) : Bool := s.halted && staysHalted s.env.inputs s.int

/-- The canonical form of memory (R50), which every step keeps. -/
def State.Inv (s : State) : Prop := s.mem.wf = true

end Sys2Proof.Machine
end

