-- ==== Sys2Proof/Certificates/Slice0/Obligations.lean ====
section
/-! DEFINITION. The statements for the provers. Each docstring says which rules of spec/ the statement formalises. `e` of
`ChangesOnly` and `Wrote` is the platform before the writes; a list of writes is in access order. -/

open Sys2Proof Sys2Proof.Machine

/-! ### Encoding (spec/30_encoding) -/

/-- Decoding the bytes of a well-formed instruction gives it back, with the bytes after it (R70 to R81). -/
def Obligations.DecodeOfEncodeIsTheInstruction : Prop :=
  ∀ (i : Instr) (rest : List Byte), i.wellFormed = true → decodeBytes (encode i ++ rest) = .instr i rest

/-- Every opcode byte begins exactly one form, which is well formed, and encoding it again gives the bytes it was read
from: no bit of them is dropped (R70, R73). -/
def Obligations.EncodeOfDecodeIsTheBytes : Prop :=
  ∀ op b2 b3 : Byte,
    (decode op b2 b3).wellFormed = true ∧ encode (decode op b2 b3) = [op, b2, b3].take (opcodeLength op)

/-- Words written out from the spec's own lines: 41H, 06H 08H and C3H 00H 82H of the source, and one of each family from
the examples of the rules (R55, R71, R101, R104, R109, R122, R153, R182, R209, R232, R237). -/
def Obligations.SpecExampleWordsDecode : Prop :=
  decodeBytes [0x41] = .instr (.movRR .b .c) [] ∧
  decodeBytes [0x06, 0x08] = .instr (.mviR .b 0x08) [] ∧
  decodeBytes [0xC3, 0x00, 0x82] = .instr (.jmp 0x8200) [] ∧
  decodeBytes [0x21, 0x50, 0x20] = .instr (.lxi .hl 0x2050) [] ∧
  decodeBytes [0x81] = .instr (.addR .c) [] ∧
  decodeBytes [0xE6, 0x3F] = .instr (.ani 0x3F) [] ∧
  decodeBytes [0xF7] = .instr (.rst 6) [] ∧
  decodeBytes [0xD3, 0x50] = .instr (.outPort 0x50) [] ∧
  decodeBytes [0xE3] = .instr .xthl [] ∧
  decodeBytes [0x30] = .instr .sim [] ∧
  decodeBytes [0x08] = .instr .undef08 []

/-- The ten undefined opcode bytes are refused with the address and the byte, whatever the state (R81, R13, U1). That the
refusal carries the pc and the byte, and stands for the stuck outcome, is log 13, DEDUCED. -/
def Obligations.UndefinedOpcodesAreRefused : Prop :=
  ∀ s : State,
    exec .undef08 s = .refused (.undefinedOpcode s.pc 0x08) ∧
    exec .undef10 s = .refused (.undefinedOpcode s.pc 0x10) ∧
    exec .undef18 s = .refused (.undefinedOpcode s.pc 0x18) ∧
    exec .undef28 s = .refused (.undefinedOpcode s.pc 0x28) ∧
    exec .undef38 s = .refused (.undefinedOpcode s.pc 0x38) ∧
    exec .undefCB s = .refused (.undefinedOpcode s.pc 0xCB) ∧
    exec .undefD9 s = .refused (.undefinedOpcode s.pc 0xD9) ∧
    exec .undefDD s = .refused (.undefinedOpcode s.pc 0xDD) ∧
    exec .undefED s = .refused (.undefinedOpcode s.pc 0xED) ∧
    exec .undefFD s = .refused (.undefinedOpcode s.pc 0xFD) ∧
    ∀ op b2 b3 : Byte, isUndefinedOpcode op = true →
      exec (decode op b2 b3) s = .refused (.undefinedOpcode s.pc op)

/-! ### The step (spec/00_scope R12) -/

/-- When the bytes at pc lie in RAM or ROM and decode to `i`, the step is `exec i` on the very same state and then the
sampling of R246 (R12, R25, R55). -/
def Obligations.StepRunsTheDecodedInstruction : Prop :=
  ∀ (s : State) (i : Instr) (rest : List Byte),
    s.fetches = true → s.codeStored = true → decodeBytes s.codeBytes = .instr i rest →
      step s = thenSample (exec i s)

/-- Whatever kind of address pc lies at, the fetch reads the opcode, then byte 2 and byte 3 as the length asks, in that
order (R58). -/
def Obligations.FetchReadsTheInstructionBytes : Prop :=
  ∀ s s1 s2 s3 : State, ∀ op b2 b3 : Byte,
    s.fetches = true → s.memRead s.pc = (op, s1) → s1.memRead (s.pc + 1) = (b2, s2) →
    s2.memRead (s.pc + 2) = (b3, s3) →
      (opcodeLength op = 1 → step s = thenSample (exec (decode op b2 b3) s1)) ∧
      (opcodeLength op = 2 → step s = thenSample (exec (decode op b2 b3) s2)) ∧
      (opcodeLength op = 3 → (∀ k, fetchCondition (decode op b2 b3) = some k → condHolds k s.flags = true) →
        step s = thenSample (exec (decode op b2 b3) s3))

/-- A conditional jump or call whose condition is false reads the opcode and byte 2 only, and does nothing but advance pc
past itself (R58, R180 h). -/
def Obligations.FalseConditionSkipsByteThree : Prop :=
  ∀ s s1 s2 : State, ∀ op b2 : Byte, ∀ k : Cond,
    s.fetches = true → s.memRead s.pc = (op, s1) → s1.memRead (s.pc + 1) = (b2, s2) →
    fetchCondition (decode op 0 0) = some k → condHolds k s.flags = false →
      step s = State.sampleInterrupts { s2 with pc := s.pc + 3 }

/-- While halted no instruction is fetched or executed: the step only samples (R38, R251). -/
def Obligations.HaltedStepOnlySamples : Prop :=
  ∀ s : State, s.halted = true → s.env.input.resetIn = false → step s = s.sampleInterrupts

/-- No defined instruction can fault, trap or abort: each has a next state from every state (R240). -/
def Obligations.EveryDefinedInstructionCompletes : Prop :=
  ∀ (i : Instr) (s : State), isUndefinedOpcode i.opcode = false → ∃ t, exec i s = .next t

/-- A step without a next state met an undefined opcode at pc, or an acknowledge byte that is neither RST n nor CALL
(R13, R240, R250; that the model refuses there is logs 11 and 13). -/
def Obligations.StepStopsOnlyWhereTheSpecIsOpen : Prop :=
  ∀ (s : State) (r : Refusal), step s = .refused r →
    (∃ op, r = .undefinedOpcode s.pc op ∧ isUndefinedOpcode op = true ∧ s.fetches = true ∧ (s.memRead s.pc).1 = op) ∨
    (∃ v, r = .acknowledgeByte v ∧ isAcknowledgeByte v = false)

/-! ### Memory (spec/20_memory) -/

/-- What a byte access does at each kind of address: RAM answers the last byte written and stores, ROM answers and
ignores, an unpopulated address answers a fresh free value and ignores, a device is asked and told (R52). That what a
device answers and is told stands in lists of the state is the model's choice (logs 6, 7, 17). -/
def Obligations.MemoryAccessByKind : Prop :=
  ∀ (s : State) (a : Word) (v : Byte),
    (s.kindAt a = .ram → s.memRead a = (s.byteAt a, s) ∧ (s.memWrite a v).memRead a = (v, s.memWrite a v) ∧
      (s.memWrite a v).env = s.env) ∧
    (s.kindAt a = .rom → s.memRead a = (s.byteAt a, s) ∧ (s.memWrite a v) = s) ∧
    (s.kindAt a = .unpopulated →
      (∃ x, s.memRead a = (x, { s with env := { s.env with draws := s.env.draws + 1 } })) ∧ (s.memWrite a v) = s) ∧
    (s.kindAt a = .device →
      (∀ x xs, s.env.deviceAnswers = x :: xs →
        (s.memRead a).1 = x ∧ (s.memRead a).2.env.deviceAnswers = xs ∧
        (s.memRead a).2.env.events = .deviceRead a x :: s.env.events) ∧
      (s.memWrite a v) = { s with env := { s.env with events := .deviceWrite a v :: s.env.events } }) ∧
    ∀ b, b ≠ a → (s.memWrite a v).byteAt b = s.byteAt b

/-- Every step keeps memory in its canonical form: addresses strictly rising and inside the 64 KiB space (R50; the form
is the model's choice, log 4). -/
def Obligations.StepKeepsMemoryForm : Prop :=
  ∀ s t : State, s.Inv → step s = .next t → t.Inv

/-- The reset state's memory has the canonical form (R50, log 4). -/
def Obligations.ResetMemoryHasItsForm : Prop := State.reset.Inv

/-- No step changes the memory map or the content of an address that is not RAM (R52, R60). -/
def Obligations.StepChangesOnlyRamCells : Prop :=
  ∀ s t : State, step s = .next t →
    t.env.memMap = s.env.memMap ∧ ∀ a : Word, s.kindAt a ≠ .ram → t.byteAt a = s.byteAt a

/-- A store into the next instruction's first byte is what the next fetch reads (R64). -/
def Obligations.FetchSeesTheStoreBefore : Prop :=
  ∀ s : State, s.fetches = true → s.env.memMap = [] → s.byteAt s.pc = 0x32 →
    s.byteAt (s.pc + 1) = loByte (s.pc + 3) → s.byteAt (s.pc + 2) = hiByte (s.pc + 3) →
    (s.int.latch s.env.input.pins).recognise s.env.input.pins = none →
      ∃ t, step s = .next t ∧ t.pc = s.pc + 3 ∧
        t.fetch.1 = decode (s.reg .a) (s.byteAt (s.pc + 4)) (s.byteAt (s.pc + 5))

/-! ### Data transfer (spec/40_data_transfer) -/

/-- MOV r1,r2, MVI r,d8, LXI rp,d16 and XCHG (R101, R104, R109, R106). -/
def Obligations.RegisterTransfers : Prop :=
  ∀ (s : State) (dst src : Reg) (pair : RegPair) (b2 b3 : Byte),
    (decode (0b01#2 ++ dst.code ++ src.code) b2 b3 = .movRR dst src ∧
      ∃ t, exec (.movRR dst src) s = .next t ∧ t.reg dst = s.reg src ∧ t.flags = s.flags ∧ t.sp = s.sp ∧
        t.pc = s.pc + 1 ∧ ChangesOnly [dst] s.env [] s t) ∧
    (decode (0b00#2 ++ dst.code ++ 0b110#3) b2 b3 = .mviR dst b2 ∧
      ∃ t, exec (.mviR dst b2) s = .next t ∧ t.reg dst = b2 ∧ t.flags = s.flags ∧ t.sp = s.sp ∧
        t.pc = s.pc + 2 ∧ ChangesOnly [dst] s.env [] s t) ∧
    (decode (0b00#2 ++ pair.code ++ 0b0001#4) b2 b3 = .lxi pair (wordOf b3 b2) ∧
      ∃ t, exec (.lxi pair (wordOf b3 b2)) s = .next t ∧ t.pair pair = wordOf b3 b2 ∧ t.flags = s.flags ∧
        (pair ≠ .sp → t.sp = s.sp) ∧ t.pc = s.pc + 3 ∧ ChangesOnly (pairHalves pair) s.env [] s t) ∧
    (decode 0xEB b2 b3 = .xchg ∧
      ∃ t, exec .xchg s = .next t ∧ t.reg .h = s.reg .d ∧ t.reg .d = s.reg .h ∧ t.reg .l = s.reg .e ∧
        t.reg .e = s.reg .l ∧ t.flags = s.flags ∧ t.sp = s.sp ∧ t.pc = s.pc + 1 ∧
        ChangesOnly [.d, .e, .h, .l] s.env [] s t)

/-- MOV r,M, LDA, LDAX and LHLD: the register takes what the read answers, and the read alone touches the platform
(R102, R107, R108, R112). -/
def Obligations.LoadsFromMemory : Prop :=
  ∀ (s : State) (dst : Reg) (pair : RegPair) (b2 b3 : Byte),
    (decode (0b01#2 ++ dst.code ++ 0b110#3) b2 b3 = .movRM dst ∧
      ∃ t, exec (.movRM dst) s = .next t ∧ t.reg dst = (s.memRead s.hl).1 ∧ t.flags = s.flags ∧ t.sp = s.sp ∧
        t.pc = s.pc + 1 ∧ ChangesOnly [dst] (s.memRead s.hl).2.env [] s t) ∧
    (decode 0x3A b2 b3 = .lda (wordOf b3 b2) ∧
      ∃ t, exec (.lda (wordOf b3 b2)) s = .next t ∧ t.reg .a = (s.memRead (wordOf b3 b2)).1 ∧ t.flags = s.flags ∧
        t.sp = s.sp ∧ t.pc = s.pc + 3 ∧ ChangesOnly [.a] (s.memRead (wordOf b3 b2)).2.env [] s t) ∧
    (pair.indirect = true → decode (0b00#2 ++ pair.code ++ 0b1010#4) b2 b3 = .ldax pair ∧
      ∃ t, exec (.ldax pair) s = .next t ∧ t.reg .a = (s.memRead (s.pair pair)).1 ∧ t.flags = s.flags ∧
        t.sp = s.sp ∧ t.pc = s.pc + 1 ∧ ChangesOnly [.a] (s.memRead (s.pair pair)).2.env [] s t) ∧
    (decode 0x2A b2 b3 = .lhld (wordOf b3 b2) ∧
      ∃ t, exec (.lhld (wordOf b3 b2)) s = .next t ∧ t.reg .l = (s.memRead (wordOf b3 b2)).1 ∧
        t.reg .h = ((s.memRead (wordOf b3 b2)).2.memRead (wordOf b3 b2 + 1)).1 ∧ t.flags = s.flags ∧ t.sp = s.sp ∧
        t.pc = s.pc + 3 ∧
        ChangesOnly [.h, .l] ((s.memRead (wordOf b3 b2)).2.memRead (wordOf b3 b2 + 1)).2.env [] s t)

/-- MOV M,r, MVI M,d8, STA, STAX and SHLD: where each stores, which byte, and that no other cell and no register changes
(R103, R105, R110, R111, R113). -/
def Obligations.StoresToMemory : Prop :=
  ∀ (s : State) (src : Reg) (pair : RegPair) (b2 b3 : Byte),
    (decode (0b01110#5 ++ src.code) b2 b3 = .movMR src ∧
      ∃ t, exec (.movMR src) s = .next t ∧ t.flags = s.flags ∧ t.sp = s.sp ∧ t.pc = s.pc + 1 ∧
        ChangesOnly [] s.env [(s.hl, s.reg src)] s t) ∧
    (decode 0x36 b2 b3 = .mviM b2 ∧
      ∃ t, exec (.mviM b2) s = .next t ∧ t.flags = s.flags ∧ t.sp = s.sp ∧ t.pc = s.pc + 2 ∧
        ChangesOnly [] s.env [(s.hl, b2)] s t) ∧
    (decode 0x32 b2 b3 = .sta (wordOf b3 b2) ∧
      ∃ t, exec (.sta (wordOf b3 b2)) s = .next t ∧ t.flags = s.flags ∧ t.sp = s.sp ∧ t.pc = s.pc + 3 ∧
        ChangesOnly [] s.env [(wordOf b3 b2, s.reg .a)] s t) ∧
    (pair.indirect = true → decode (0b00#2 ++ pair.code ++ 0b0010#4) b2 b3 = .stax pair ∧
      ∃ t, exec (.stax pair) s = .next t ∧ t.flags = s.flags ∧ t.sp = s.sp ∧ t.pc = s.pc + 1 ∧
        ChangesOnly [] s.env [(s.pair pair, s.reg .a)] s t) ∧
    (decode 0x22 b2 b3 = .shld (wordOf b3 b2) ∧
      ∃ t, exec (.shld (wordOf b3 b2)) s = .next t ∧ t.flags = s.flags ∧ t.sp = s.sp ∧ t.pc = s.pc + 3 ∧
        ChangesOnly [] s.env [(wordOf b3 b2, s.reg .l), (wordOf b3 b2 + 1, s.reg .h)] s t)

/-! ### Arithmetic (spec/41_arithmetic) -/

/-- ADD, ADC, ADI and ACI: the sum modulo 256 and all five flags as exact comparisons of numbers (R122 to R127). -/
def Obligations.AdditionsToTheAccumulator : Prop :=
  ∀ (s : State) (src : Reg) (b2 b3 : Byte),
    (decode (0b10000#5 ++ src.code) b2 b3 = .addR src ∧
      ∃ t, exec (.addR src) s = .next t ∧ HoldsSum s t (s.reg src) false ∧ t.sp = s.sp ∧ t.pc = s.pc + 1 ∧
        ChangesOnly [.a] s.env [] s t) ∧
    (decode 0x86 b2 b3 = .addM ∧
      ∃ t, exec .addM s = .next t ∧ HoldsSum s t (s.memRead s.hl).1 false ∧ t.sp = s.sp ∧ t.pc = s.pc + 1 ∧
        ChangesOnly [.a] (s.memRead s.hl).2.env [] s t) ∧
    (decode (0b10001#5 ++ src.code) b2 b3 = .adcR src ∧
      ∃ t, exec (.adcR src) s = .next t ∧ HoldsSum s t (s.reg src) s.flags.cy ∧ t.sp = s.sp ∧ t.pc = s.pc + 1 ∧
        ChangesOnly [.a] s.env [] s t) ∧
    (decode 0x8E b2 b3 = .adcM ∧
      ∃ t, exec .adcM s = .next t ∧ HoldsSum s t (s.memRead s.hl).1 s.flags.cy ∧ t.sp = s.sp ∧ t.pc = s.pc + 1 ∧
        ChangesOnly [.a] (s.memRead s.hl).2.env [] s t) ∧
    (decode 0xC6 b2 b3 = .adi b2 ∧
      ∃ t, exec (.adi b2) s = .next t ∧ HoldsSum s t b2 false ∧ t.sp = s.sp ∧ t.pc = s.pc + 2 ∧
        ChangesOnly [.a] s.env [] s t) ∧
    (decode 0xCE b2 b3 = .aci b2 ∧
      ∃ t, exec (.aci b2) s = .next t ∧ HoldsSum s t b2 s.flags.cy ∧ t.sp = s.sp ∧ t.pc = s.pc + 2 ∧
        ChangesOnly [.a] s.env [] s t)

/-- SUB, SBB, SUI and SBI: the difference modulo 256, CY the borrow, AC set exactly when there is no borrow into bit 3
(R130 to R135). -/
def Obligations.SubtractionsFromTheAccumulator : Prop :=
  ∀ (s : State) (src : Reg) (b2 b3 : Byte),
    (decode (0b10010#5 ++ src.code) b2 b3 = .subR src ∧
      ∃ t, exec (.subR src) s = .next t ∧ FlagsOfDifference (s.reg .a) (s.reg src) false (t.reg .a) t.flags ∧
        t.sp = s.sp ∧ t.pc = s.pc + 1 ∧ ChangesOnly [.a] s.env [] s t) ∧
    (decode 0x96 b2 b3 = .subM ∧
      ∃ t, exec .subM s = .next t ∧ FlagsOfDifference (s.reg .a) (s.memRead s.hl).1 false (t.reg .a) t.flags ∧
        t.sp = s.sp ∧ t.pc = s.pc + 1 ∧ ChangesOnly [.a] (s.memRead s.hl).2.env [] s t) ∧
    (decode (0b10011#5 ++ src.code) b2 b3 = .sbbR src ∧
      ∃ t, exec (.sbbR src) s = .next t ∧ FlagsOfDifference (s.reg .a) (s.reg src) s.flags.cy (t.reg .a) t.flags ∧
        t.sp = s.sp ∧ t.pc = s.pc + 1 ∧ ChangesOnly [.a] s.env [] s t) ∧
    (decode 0x9E b2 b3 = .sbbM ∧
      ∃ t, exec .sbbM s = .next t ∧
        FlagsOfDifference (s.reg .a) (s.memRead s.hl).1 s.flags.cy (t.reg .a) t.flags ∧
        t.sp = s.sp ∧ t.pc = s.pc + 1 ∧ ChangesOnly [.a] (s.memRead s.hl).2.env [] s t) ∧
    (decode 0xD6 b2 b3 = .sui b2 ∧
      ∃ t, exec (.sui b2) s = .next t ∧ FlagsOfDifference (s.reg .a) b2 false (t.reg .a) t.flags ∧
        t.sp = s.sp ∧ t.pc = s.pc + 2 ∧ ChangesOnly [.a] s.env [] s t) ∧
    (decode 0xDE b2 b3 = .sbi b2 ∧
      ∃ t, exec (.sbi b2) s = .next t ∧ FlagsOfDifference (s.reg .a) b2 s.flags.cy (t.reg .a) t.flags ∧
        t.sp = s.sp ∧ t.pc = s.pc + 2 ∧ ChangesOnly [.a] s.env [] s t)

/-- INR r and DCR r: the register by one, S, Z, P and AC from it, CY left (R136, R139). -/
def Obligations.IncrementAndDecrementRegister : Prop :=
  ∀ (s : State) (dst : Reg) (b2 b3 : Byte),
    (decode (0b00#2 ++ dst.code ++ 0b100#3) b2 b3 = .inrR dst ∧
      ∃ t, exec (.inrR dst) s = .next t ∧ t.reg dst = s.reg dst + 1 ∧ SignZeroParity t.flags (t.reg dst) ∧
        (t.flags.ac = true ↔ (s.reg dst).toNat % 16 = 15) ∧ t.flags.cy = s.flags.cy ∧ t.sp = s.sp ∧
        t.pc = s.pc + 1 ∧ ChangesOnly [dst] s.env [] s t) ∧
    (decode (0b00#2 ++ dst.code ++ 0b101#3) b2 b3 = .dcrR dst ∧
      ∃ t, exec (.dcrR dst) s = .next t ∧ t.reg dst = s.reg dst - 1 ∧ SignZeroParity t.flags (t.reg dst) ∧
        (t.flags.ac = true ↔ (s.reg dst).toNat % 16 ≠ 0) ∧ t.flags.cy = s.flags.cy ∧ t.sp = s.sp ∧
        t.pc = s.pc + 1 ∧ ChangesOnly [dst] s.env [] s t)

/-- INR M and DCR M: one read of the byte at HL, then one write of it by one; the flags are those of the value written
back, also where the address takes no write; CY and every register are left (R137, R140). -/
def Obligations.IncrementAndDecrementMemory : Prop :=
  ∀ (s : State) (b2 b3 : Byte),
    (decode 0x34 b2 b3 = .inrM ∧
      ∃ t, exec .inrM s = .next t ∧ SignZeroParity t.flags ((s.memRead s.hl).1 + 1) ∧
        (t.flags.ac = true ↔ (s.memRead s.hl).1.toNat % 16 = 15) ∧ t.flags.cy = s.flags.cy ∧ t.sp = s.sp ∧
        t.pc = s.pc + 1 ∧
        ChangesOnly [] (s.memRead s.hl).2.env [(s.hl, (s.memRead s.hl).1 + 1)] s t) ∧
    (decode 0x35 b2 b3 = .dcrM ∧
      ∃ t, exec .dcrM s = .next t ∧ SignZeroParity t.flags ((s.memRead s.hl).1 - 1) ∧
        (t.flags.ac = true ↔ (s.memRead s.hl).1.toNat % 16 ≠ 0) ∧ t.flags.cy = s.flags.cy ∧ t.sp = s.sp ∧
        t.pc = s.pc + 1 ∧
        ChangesOnly [] (s.memRead s.hl).2.env [(s.hl, (s.memRead s.hl).1 - 1)] s t)

/-- INX, DCX and DAD: 16-bit sums modulo 65,536; INX and DCX write no flag, DAD writes CY alone, the carry out of bit 15
(R138, R141, R128). -/
def Obligations.RegisterPairArithmetic : Prop :=
  ∀ (s : State) (pair : RegPair) (b2 b3 : Byte),
    (decode (0b00#2 ++ pair.code ++ 0b0011#4) b2 b3 = .inx pair ∧
      ∃ t, exec (.inx pair) s = .next t ∧ (t.pair pair).toNat = ((s.pair pair).toNat + 1) % 65536 ∧
        t.flags = s.flags ∧ (pair ≠ .sp → t.sp = s.sp) ∧ t.pc = s.pc + 1 ∧
        ChangesOnly (pairHalves pair) s.env [] s t) ∧
    (decode (0b00#2 ++ pair.code ++ 0b1011#4) b2 b3 = .dcx pair ∧
      ∃ t, exec (.dcx pair) s = .next t ∧ (t.pair pair).toNat = ((s.pair pair).toNat + 65535) % 65536 ∧
        t.flags = s.flags ∧ (pair ≠ .sp → t.sp = s.sp) ∧ t.pc = s.pc + 1 ∧
        ChangesOnly (pairHalves pair) s.env [] s t) ∧
    (decode (0b00#2 ++ pair.code ++ 0b1001#4) b2 b3 = .dad pair ∧
      ∃ t, exec (.dad pair) s = .next t ∧ (t.pair .hl).toNat = ((s.pair .hl).toNat + (s.pair pair).toNat) % 65536 ∧
        (t.flags.cy = true ↔ 65536 ≤ (s.pair .hl).toNat + (s.pair pair).toNat) ∧ SameFlagsExceptCy s t ∧
        t.sp = s.sp ∧ t.pc = s.pc + 1 ∧ ChangesOnly [.h, .l] s.env [] s t)

/-- DAA: 06H is added for the low digit and 60H for the high one, both tests on the digits before the addition; AC is the
carry out of bit 3 of the adjusting addition; CY is set with 60H and never cleared (R129). -/
def Obligations.DecimalAdjust : Prop :=
  ∀ (s : State) (b2 b3 : Byte), decode 0x27 b2 b3 = .daa ∧
    ∃ t, exec .daa s = .next t ∧
      (t.reg .a).toNat =
        ((s.reg .a).toNat + adjustLow (s.reg .a) s.flags.ac + adjustHigh (s.reg .a) s.flags.cy) % 256 ∧
      (t.flags.ac = true ↔ 16 ≤ (s.reg .a).toNat % 16 + adjustLow (s.reg .a) s.flags.ac) ∧
      (t.flags.cy = true ↔ s.flags.cy = true ∨ adjustHigh (s.reg .a) s.flags.cy = 96) ∧
      SignZeroParity t.flags (t.reg .a) ∧ t.sp = s.sp ∧ t.pc = s.pc + 1 ∧ ChangesOnly [.a] s.env [] s t

/-- What DAA is for: after the addition of two decimal bytes with carry, A and CY hold the decimal sum (R129: "Used after
a BCD addition"). -/
def Obligations.DecimalAdjustMakesTheDecimalSum : Prop :=
  ∀ (s : State) (d8 : Byte), isBcd (s.reg .a) = true → isBcd d8 = true →
    ∃ t u, exec (.aci d8) s = .next t ∧ exec .daa t = .next u ∧ isBcd (u.reg .a) = true ∧
      bcdValue (u.reg .a) + 100 * u.flags.cy.toNat = bcdValue (s.reg .a) + bcdValue d8 + s.flags.cy.toNat

/-! ### Logical, compare, carry, rotate (spec/42_logical) -/

/-- ANA, ANI, XRA, XRI, ORA, ORI: each bit of A, S, Z and P of the result, CY = 0, AC = 1 for AND and 0 for the others
(R150 to R159). -/
def Obligations.LogicalOperations : Prop :=
  ∀ (s : State) (src : Reg) (b2 b3 : Byte),
    (decode (0b10100#5 ++ src.code) b2 b3 = .anaR src ∧
      ∃ t, exec (.anaR src) s = .next t ∧
        (∀ k, (t.reg .a).getLsbD k = ((s.reg .a).getLsbD k && (s.reg src).getLsbD k)) ∧
        FlagsOfLogic t.flags (t.reg .a) true ∧ t.sp = s.sp ∧ t.pc = s.pc + 1 ∧ ChangesOnly [.a] s.env [] s t) ∧
    (decode 0xA6 b2 b3 = .anaM ∧
      ∃ t, exec .anaM s = .next t ∧
        (∀ k, (t.reg .a).getLsbD k = ((s.reg .a).getLsbD k && (s.memRead s.hl).1.getLsbD k)) ∧
        FlagsOfLogic t.flags (t.reg .a) true ∧ t.sp = s.sp ∧ t.pc = s.pc + 1 ∧
        ChangesOnly [.a] (s.memRead s.hl).2.env [] s t) ∧
    (decode 0xE6 b2 b3 = .ani b2 ∧
      ∃ t, exec (.ani b2) s = .next t ∧
        (∀ k, (t.reg .a).getLsbD k = ((s.reg .a).getLsbD k && b2.getLsbD k)) ∧
        FlagsOfLogic t.flags (t.reg .a) true ∧ t.sp = s.sp ∧ t.pc = s.pc + 2 ∧ ChangesOnly [.a] s.env [] s t) ∧
    (decode (0b10101#5 ++ src.code) b2 b3 = .xraR src ∧
      ∃ t, exec (.xraR src) s = .next t ∧
        (∀ k, (t.reg .a).getLsbD k = ((s.reg .a).getLsbD k ^^ (s.reg src).getLsbD k)) ∧
        FlagsOfLogic t.flags (t.reg .a) false ∧ t.sp = s.sp ∧ t.pc = s.pc + 1 ∧ ChangesOnly [.a] s.env [] s t) ∧
    (decode 0xAE b2 b3 = .xraM ∧
      ∃ t, exec .xraM s = .next t ∧
        (∀ k, (t.reg .a).getLsbD k = ((s.reg .a).getLsbD k ^^ (s.memRead s.hl).1.getLsbD k)) ∧
        FlagsOfLogic t.flags (t.reg .a) false ∧ t.sp = s.sp ∧ t.pc = s.pc + 1 ∧
        ChangesOnly [.a] (s.memRead s.hl).2.env [] s t) ∧
    (decode 0xEE b2 b3 = .xri b2 ∧
      ∃ t, exec (.xri b2) s = .next t ∧
        (∀ k, (t.reg .a).getLsbD k = ((s.reg .a).getLsbD k ^^ b2.getLsbD k)) ∧
        FlagsOfLogic t.flags (t.reg .a) false ∧ t.sp = s.sp ∧ t.pc = s.pc + 2 ∧ ChangesOnly [.a] s.env [] s t) ∧
    (decode (0b10110#5 ++ src.code) b2 b3 = .oraR src ∧
      ∃ t, exec (.oraR src) s = .next t ∧
        (∀ k, (t.reg .a).getLsbD k = ((s.reg .a).getLsbD k || (s.reg src).getLsbD k)) ∧
        FlagsOfLogic t.flags (t.reg .a) false ∧ t.sp = s.sp ∧ t.pc = s.pc + 1 ∧ ChangesOnly [.a] s.env [] s t) ∧
    (decode 0xB6 b2 b3 = .oraM ∧
      ∃ t, exec .oraM s = .next t ∧
        (∀ k, (t.reg .a).getLsbD k = ((s.reg .a).getLsbD k || (s.memRead s.hl).1.getLsbD k)) ∧
        FlagsOfLogic t.flags (t.reg .a) false ∧ t.sp = s.sp ∧ t.pc = s.pc + 1 ∧
        ChangesOnly [.a] (s.memRead s.hl).2.env [] s t) ∧
    (decode 0xF6 b2 b3 = .ori b2 ∧
      ∃ t, exec (.ori b2) s = .next t ∧
        (∀ k, (t.reg .a).getLsbD k = ((s.reg .a).getLsbD k || b2.getLsbD k)) ∧
        FlagsOfLogic t.flags (t.reg .a) false ∧ t.sp = s.sp ∧ t.pc = s.pc + 2 ∧ ChangesOnly [.a] s.env [] s t)

/-- CMP and CPI set the flags of A minus the operand and leave A and every other register (R160 to R162, C1). -/
def Obligations.ComparesLeaveTheAccumulator : Prop :=
  ∀ (s : State) (src : Reg) (b2 b3 : Byte),
    (decode (0b10111#5 ++ src.code) b2 b3 = .cmpR src ∧
      ∃ t r, exec (.cmpR src) s = .next t ∧ FlagsOfDifference (s.reg .a) (s.reg src) false r t.flags ∧
        t.sp = s.sp ∧ t.pc = s.pc + 1 ∧ ChangesOnly [] s.env [] s t) ∧
    (decode 0xBE b2 b3 = .cmpM ∧
      ∃ t r, exec .cmpM s = .next t ∧ FlagsOfDifference (s.reg .a) (s.memRead s.hl).1 false r t.flags ∧
        t.sp = s.sp ∧ t.pc = s.pc + 1 ∧ ChangesOnly [] (s.memRead s.hl).2.env [] s t) ∧
    (decode 0xFE b2 b3 = .cpi b2 ∧
      ∃ t r, exec (.cpi b2) s = .next t ∧ FlagsOfDifference (s.reg .a) b2 false r t.flags ∧
        t.sp = s.sp ∧ t.pc = s.pc + 2 ∧ ChangesOnly [] s.env [] s t)

/-- STC and CMC write CY alone; CMA inverts each bit of A and writes no flag (R163 to R165). -/
def Obligations.CarryAndComplement : Prop :=
  ∀ (s : State) (b2 b3 : Byte),
    (decode 0x37 b2 b3 = .stc ∧
      ∃ t, exec .stc s = .next t ∧ t.flags.cy = true ∧ SameFlagsExceptCy s t ∧ t.sp = s.sp ∧ t.pc = s.pc + 1 ∧
        ChangesOnly [] s.env [] s t) ∧
    (decode 0x3F b2 b3 = .cmc ∧
      ∃ t, exec .cmc s = .next t ∧ t.flags.cy = !s.flags.cy ∧ SameFlagsExceptCy s t ∧ t.sp = s.sp ∧
        t.pc = s.pc + 1 ∧ ChangesOnly [] s.env [] s t) ∧
    (decode 0x2F b2 b3 = .cma ∧
      ∃ t, exec .cma s = .next t ∧ (t.reg .a).toNat = 255 - (s.reg .a).toNat ∧ t.flags = s.flags ∧ t.sp = s.sp ∧
        t.pc = s.pc + 1 ∧ ChangesOnly [.a] s.env [] s t)

/-- The four rotates, bit by bit, with the bit that CY takes (R166 to R169). -/
def Obligations.RotatesMoveEveryBit : Prop :=
  ∀ (s : State) (b2 b3 : Byte),
    (decode 0x07 b2 b3 = .rlc ∧
      ∃ t, exec .rlc s = .next t ∧ (t.reg .a).getLsbD 0 = (s.reg .a).getLsbD 7 ∧
        (∀ k, k < 7 → (t.reg .a).getLsbD (k + 1) = (s.reg .a).getLsbD k) ∧
        t.flags.cy = (s.reg .a).getLsbD 7 ∧ SameFlagsExceptCy s t ∧ t.sp = s.sp ∧ t.pc = s.pc + 1 ∧
        ChangesOnly [.a] s.env [] s t) ∧
    (decode 0x0F b2 b3 = .rrc ∧
      ∃ t, exec .rrc s = .next t ∧ (t.reg .a).getLsbD 7 = (s.reg .a).getLsbD 0 ∧
        (∀ k, k < 7 → (t.reg .a).getLsbD k = (s.reg .a).getLsbD (k + 1)) ∧
        t.flags.cy = (s.reg .a).getLsbD 0 ∧ SameFlagsExceptCy s t ∧ t.sp = s.sp ∧ t.pc = s.pc + 1 ∧
        ChangesOnly [.a] s.env [] s t) ∧
    (decode 0x17 b2 b3 = .ral ∧
      ∃ t, exec .ral s = .next t ∧ (t.reg .a).getLsbD 0 = s.flags.cy ∧
        (∀ k, k < 7 → (t.reg .a).getLsbD (k + 1) = (s.reg .a).getLsbD k) ∧
        t.flags.cy = (s.reg .a).getLsbD 7 ∧ SameFlagsExceptCy s t ∧ t.sp = s.sp ∧ t.pc = s.pc + 1 ∧
        ChangesOnly [.a] s.env [] s t) ∧
    (decode 0x1F b2 b3 = .rar ∧
      ∃ t, exec .rar s = .next t ∧ (t.reg .a).getLsbD 7 = s.flags.cy ∧
        (∀ k, k < 7 → (t.reg .a).getLsbD k = (s.reg .a).getLsbD (k + 1)) ∧
        t.flags.cy = (s.reg .a).getLsbD 0 ∧ SameFlagsExceptCy s t ∧ t.sp = s.sp ∧ t.pc = s.pc + 1 ∧
        ChangesOnly [.a] s.env [] s t)

/-- Eight RLCs restore A and nine RALs restore A and CY; RRC undoes RLC in A and RAR undoes RAL in A and CY (the corner
cases of R166 and R168). -/
def Obligations.RotatesComeRound : Prop :=
  ∀ s : State,
    (∃ t, execTimes .rlc 8 s = .next t ∧ t.reg .a = s.reg .a) ∧
    (∃ t, execTimes .ral 9 s = .next t ∧ t.reg .a = s.reg .a ∧ t.flags.cy = s.flags.cy) ∧
    (∃ t u, exec .rlc s = .next t ∧ exec .rrc t = .next u ∧ u.reg .a = s.reg .a) ∧
    (∃ t u, exec .ral s = .next t ∧ exec .rar t = .next u ∧ u.reg .a = s.reg .a ∧ u.flags.cy = s.flags.cy)

/-! ### Branch (spec/43_branch) -/

/-- JMP, PCHL and the eight conditional jumps: pc and nothing else (R182 to R190, R210, conditions of R181). -/
def Obligations.JumpsChangeOnlyThePc : Prop :=
  ∀ (s : State) (b2 b3 : Byte), let a16 := wordOf b3 b2
    (decode 0xC3 b2 b3 = .jmp a16 ∧ ∃ t, exec (.jmp a16) s = .next t ∧ t.pc = a16 ∧ t.flags = s.flags ∧
      t.sp = s.sp ∧ ChangesOnly [] s.env [] s t) ∧
    (decode 0xE9 b2 b3 = .pchl ∧ ∃ t, exec .pchl s = .next t ∧ t.pc = wordOf (s.reg .h) (s.reg .l) ∧
      t.flags = s.flags ∧ t.sp = s.sp ∧ ChangesOnly [] s.env [] s t) ∧
    ∀ p ∈ ([(0xC2, .jnz a16, !s.flags.z), (0xCA, .jz a16, s.flags.z), (0xD2, .jnc a16, !s.flags.cy),
        (0xDA, .jc a16, s.flags.cy), (0xE2, .jpo a16, !s.flags.p), (0xEA, .jpe a16, s.flags.p),
        (0xF2, .jp a16, !s.flags.s), (0xFA, .jm a16, s.flags.s)] : List (Byte × Instr × Bool)),
      decode p.1 b2 b3 = p.2.1 ∧
      ∃ t, exec p.2.1 s = .next t ∧ t.pc = (if p.2.2 = true then a16 else s.pc + 3) ∧ t.flags = s.flags ∧
        t.sp = s.sp ∧ ChangesOnly [] s.env [] s t

/-- CALL and the eight conditional calls: taken, the address of the next instruction is pushed, high byte first, and pc
is the target; not taken, only pc moves past the three bytes (R191 to R199, R180 e, f, h). -/
def Obligations.CallsPushTheReturnAddress : Prop :=
  ∀ (s : State) (b2 b3 : Byte), let a16 := wordOf b3 b2
    ∀ p ∈ ([(0xCD, .call a16, true), (0xC4, .cnz a16, !s.flags.z), (0xCC, .cz a16, s.flags.z),
        (0xD4, .cnc a16, !s.flags.cy), (0xDC, .cc a16, s.flags.cy), (0xE4, .cpo a16, !s.flags.p),
        (0xEC, .cpe a16, s.flags.p), (0xF4, .cp a16, !s.flags.s), (0xFC, .cm a16, s.flags.s)] :
        List (Byte × Instr × Bool)),
      decode p.1 b2 b3 = p.2.1 ∧
      ∃ t, exec p.2.1 s = .next t ∧ t.flags = s.flags ∧
        (if p.2.2 = true then
          t.pc = a16 ∧ t.sp = s.sp - 2 ∧
          ChangesOnly [] s.env (s.pushWrites (hiByte (s.pc + 3)) (loByte (s.pc + 3))) s t
        else t.pc = s.pc + 3 ∧ t.sp = s.sp ∧ ChangesOnly [] s.env [] s t)

/-- RET and the eight conditional returns: taken, pc is the word popped, low byte from SP; not taken, pc moves past the
one byte and the stack is not read (R200 to R208, R180 f, h). -/
def Obligations.ReturnsPopThePc : Prop :=
  ∀ (s : State) (b2 b3 : Byte),
    ∀ p ∈ ([(0xC9, .ret, true), (0xC0, .rnz, !s.flags.z), (0xC8, .rz, s.flags.z), (0xD0, .rnc, !s.flags.cy),
        (0xD8, .rc, s.flags.cy), (0xE0, .rpo, !s.flags.p), (0xE8, .rpe, s.flags.p), (0xF0, .rp, !s.flags.s),
        (0xF8, .rm, s.flags.s)] : List (Byte × Instr × Bool)),
      decode p.1 b2 b3 = p.2.1 ∧
      ∃ t, exec p.2.1 s = .next t ∧ t.flags = s.flags ∧
        (if p.2.2 = true then t.pc = wordOf s.topHigh s.topLow ∧ t.sp = s.sp + 2 ∧ ChangesOnly [] s.topEnv [] s t
        else t.pc = s.pc + 1 ∧ t.sp = s.sp ∧ ChangesOnly [] s.env [] s t)

/-- RST n pushes pc + 1 and continues at 8 times n; INTE and the masks are left (R209). -/
def Obligations.RestartCallsEightTimesN : Prop :=
  ∀ (s : State) (n : BitVec 3) (b2 b3 : Byte),
    decode (0b11#2 ++ n ++ 0b111#3) b2 b3 = .rst n ∧
    ∃ t, exec (.rst n) s = .next t ∧ t.pc.toNat = 8 * n.toNat ∧ t.sp = s.sp - 2 ∧ t.flags = s.flags ∧
      ChangesOnly [] s.env (s.pushWrites (hiByte (s.pc + 1)) (loByte (s.pc + 1))) s t

/-- A call whose return address goes to RAM and the return after it continue after the call, with SP and everything but
the two stack bytes as before (R191, R200: "the inverse of the push"). -/
def Obligations.CallThenReturnComesBack : Prop :=
  ∀ (s : State) (a16 : Word), s.kindAt (s.sp - 1) = .ram → s.kindAt (s.sp - 2) = .ram →
    ∃ t u, exec (.call a16) s = .next t ∧ exec .ret t = .next u ∧ u.pc = s.pc + 3 ∧ u.sp = s.sp ∧
      u.regs = s.regs ∧ u.flags = s.flags ∧ SameControl s u ∧ u.env = s.env ∧
      ∀ b, b ≠ s.sp - 1 → b ≠ s.sp - 2 → u.byteAt b = s.byteAt b

/-! ### Control (spec/44_control) -/

/-- NOP, HLT, EI and DI change pc and, of the rest, exactly what the record says (R220 to R223). -/
def Obligations.SimpleControlInstructions : Prop :=
  ∀ (s : State) (b2 b3 : Byte),
    (decode 0x00 b2 b3 = .nop ∧ exec .nop s = .next { s with pc := s.pc + 1 }) ∧
    (decode 0x76 b2 b3 = .hlt ∧ exec .hlt s = .next { s with pc := s.pc + 1, halted := true }) ∧
    (decode 0xFB b2 b3 = .ei ∧
      exec .ei s = .next { s with pc := s.pc + 1, int := { s.int with inte := true, eiDelay := true } }) ∧
    (decode 0xF3 b2 b3 = .di ∧ exec .di s = .next { s with pc := s.pc + 1, int := { s.int with inte := false } })

/-- SIM: bit 3 of A lets bits 2 to 0 into the masks, bit 4 clears R75, bit 6 lets bit 7 into SOD, and a change of SOD is
seen outside (R37, R277); nothing else changes, A included (R224). -/
def Obligations.SimLoadsMasksAndSod : Prop :=
  ∀ (s : State) (b2 b3 : Byte), decode 0x30 b2 b3 = .sim ∧
    let v := s.reg .a
    ∃ t, exec .sim s = .next t ∧
      t.int.m55 = (if v.getLsbD 3 = true then v.getLsbD 0 else s.int.m55) ∧
      t.int.m65 = (if v.getLsbD 3 = true then v.getLsbD 1 else s.int.m65) ∧
      t.int.m75 = (if v.getLsbD 3 = true then v.getLsbD 2 else s.int.m75) ∧
      t.int.r75 = (if v.getLsbD 4 = true then false else s.int.r75) ∧
      t.int.inte = s.int.inte ∧ t.int.trapff = s.int.trapff ∧ t.int.eiDelay = s.int.eiDelay ∧
      t.int.trapIe = s.int.trapIe ∧ t.halted = s.halted ∧
      t.sod = (if v.getLsbD 6 = true then v.getLsbD 7 else s.sod) ∧
      t.env = (if t.sod = s.sod then s.env else { s.env with events := .sodChange t.sod :: s.env.events }) ∧
      t.regs = s.regs ∧ t.flags = s.flags ∧ t.sp = s.sp ∧ t.pc = s.pc + 1 ∧ ∀ b, t.byteAt b = s.byteAt b

/-- RIM: every bit of the byte it leaves in A; where the platform gives no SID bit 7 is free. It changes no interrupt
state but trap_ie, no flag and no memory (R225). -/
def Obligations.RimReadsTheInterruptState : Prop :=
  ∀ (s : State) (b2 b3 : Byte), decode 0x20 b2 b3 = .rim ∧
    ∃ t, exec .rim s = .next t ∧
      (∀ sid, s.env.input.sid = some sid → (t.reg .a).getLsbD 7 = sid) ∧
      (t.reg .a).getLsbD 6 = s.int.r75 ∧ (t.reg .a).getLsbD 5 = s.env.input.rst65Pin ∧
      (t.reg .a).getLsbD 4 = s.env.input.rst55Pin ∧
      (∀ b, s.int.trapIe = some b → (t.reg .a).getLsbD 3 = b) ∧
      (s.int.trapIe = none → (t.reg .a).getLsbD 3 = s.int.inte) ∧
      (t.reg .a).getLsbD 2 = s.int.m75 ∧ (t.reg .a).getLsbD 1 = s.int.m65 ∧ (t.reg .a).getLsbD 0 = s.int.m55 ∧
      t.int = { s.int with trapIe := none } ∧ SameRegsExcept [.a] s t ∧ t.flags = s.flags ∧ t.sp = s.sp ∧
      t.pc = s.pc + 1 ∧ t.sod = s.sod ∧ t.halted = s.halted ∧ Wrote s t { s.env with draws := t.env.draws } []

/-- The first RIM after a TRAP shows INTE as it was before the TRAP, the second shows INTE as it is (R39 b, R225). -/
def Obligations.RimAfterTrapShowsTheOldInte : Prop :=
  ∀ s : State, ∃ t u v, s.takeInterrupt .trap = .next t ∧ exec .rim t = .next u ∧ exec .rim u = .next v ∧
    (u.reg .a).getLsbD 3 = s.int.inte ∧ (v.reg .a).getLsbD 3 = false

/-! ### Input, output, stack (spec/45_io_stack) -/

/-- IN: exactly one port read, whose answer A takes; OUT: exactly one port write, of A. Nothing else changes but pc
(R231, R232). That ports answer from a list and accesses are recorded in one is the model's choice (logs 8, 17). -/
def Obligations.PortInputAndOutput : Prop :=
  ∀ (s : State) (b2 b3 : Byte),
    (decode 0xDB b2 b3 = .inPort b2 ∧
      ∃ t, exec (.inPort b2) s = .next t ∧ (∀ v vs, s.env.portAnswers = v :: vs → t.reg .a = v) ∧
        t.flags = s.flags ∧ t.sp = s.sp ∧ t.pc = s.pc + 2 ∧
        ChangesOnly [.a] { s.env with
          portAnswers := s.env.portAnswers.tail
          events := .portRead b2 (t.reg .a) :: s.env.events
          draws := t.env.draws } [] s t) ∧
    (decode 0xD3 b2 b3 = .outPort b2 ∧
      ∃ t, exec (.outPort b2) s = .next t ∧ t.flags = s.flags ∧ t.sp = s.sp ∧ t.pc = s.pc + 2 ∧
        ChangesOnly [] { s.env with events := .portWrite b2 (s.reg .a) :: s.env.events } [] s t)

/-- PUSH rp and POP rp for BC, DE and HL (R233, R235). -/
def Obligations.PushAndPopPairs : Prop :=
  ∀ (s : State) (pair : RegPair) (b2 b3 : Byte), pair.stackable = true →
    (decode (0b11#2 ++ pair.code ++ 0b0101#4) b2 b3 = .push pair ∧
      ∃ t, exec (.push pair) s = .next t ∧ t.sp = s.sp - 2 ∧ t.flags = s.flags ∧ t.pc = s.pc + 1 ∧
        ChangesOnly [] s.env (s.pushWrites (hiByte (s.pair pair)) (loByte (s.pair pair))) s t) ∧
    (decode (0b11#2 ++ pair.code ++ 0b0001#4) b2 b3 = .pop pair ∧
      ∃ t, exec (.pop pair) s = .next t ∧ t.pair pair = wordOf s.topHigh s.topLow ∧ t.sp = s.sp + 2 ∧
        t.flags = s.flags ∧ t.pc = s.pc + 1 ∧ ChangesOnly (pairHalves pair) s.topEnv [] s t)

/-- PUSH PSW stores A and a flag byte whose bits 5, 3 and 1 are free; POP PSW loads the five flags and A, ignoring those
bits (R30, R234, R236). -/
def Obligations.PushAndPopProgramStatus : Prop :=
  ∀ (s : State) (b2 b3 : Byte),
    (decode 0xF5 b2 b3 = .pushPsw ∧
      ∃ t f, exec .pushPsw s = .next t ∧ f.getLsbD 7 = s.flags.s ∧ f.getLsbD 6 = s.flags.z ∧
        f.getLsbD 4 = s.flags.ac ∧ f.getLsbD 2 = s.flags.p ∧ f.getLsbD 0 = s.flags.cy ∧ t.sp = s.sp - 2 ∧
        t.flags = s.flags ∧ t.pc = s.pc + 1 ∧
        ChangesOnly [] { s.env with draws := t.env.draws } (s.pushWrites (s.reg .a) f) s t) ∧
    (decode 0xF1 b2 b3 = .popPsw ∧
      ∃ t, exec .popPsw s = .next t ∧ t.flags.s = s.topLow.getLsbD 7 ∧ t.flags.z = s.topLow.getLsbD 6 ∧
        t.flags.ac = s.topLow.getLsbD 4 ∧ t.flags.p = s.topLow.getLsbD 2 ∧ t.flags.cy = s.topLow.getLsbD 0 ∧
        t.reg .a = s.topHigh ∧ t.sp = s.sp + 2 ∧ t.pc = s.pc + 1 ∧ ChangesOnly [.a] s.topEnv [] s t)

/-- PUSH PSW to RAM and a later POP PSW from the same SP restore A and the five flags exactly, whatever A and the flags
have become in between and whatever the free bits were (R30, U4). -/
def Obligations.ProgramStatusComesBack : Prop :=
  ∀ (s : State) (v : Byte) (f : Flags), s.kindAt (s.sp - 1) = .ram → s.kindAt (s.sp - 2) = .ram →
    ∃ t u, exec .pushPsw s = .next t ∧ exec .popPsw ((t.setReg .a v).setFlags f) = .next u ∧
      u.regs = s.regs ∧ u.flags = s.flags ∧ u.sp = s.sp

/-- XTHL: two reads, then two writes, H to SP + 1 first; HL and the stack top change places and SP stays. SPHL: SP takes
HL (R237, R238). -/
def Obligations.StackExchangeAndLoad : Prop :=
  ∀ (s : State) (b2 b3 : Byte),
    (decode 0xE3 b2 b3 = .xthl ∧
      ∃ t, exec .xthl s = .next t ∧ t.reg .l = s.topLow ∧ t.reg .h = s.topHigh ∧ t.flags = s.flags ∧ t.sp = s.sp ∧
        t.pc = s.pc + 1 ∧ ChangesOnly [.h, .l] s.topEnv [(s.sp + 1, s.reg .h), (s.sp, s.reg .l)] s t) ∧
    (decode 0xF9 b2 b3 = .sphl ∧
      ∃ t, exec .sphl s = .next t ∧ t.sp = wordOf (s.reg .h) (s.reg .l) ∧ t.flags = s.flags ∧ t.pc = s.pc + 1 ∧
        ChangesOnly [] s.env [] s t)

/-! ### Flags and control state over all instructions -/

/-- An instruction outside the flag table's writing rows leaves all five flags, and so does a sampling point, whether it
takes an interrupt or not (R28, R29). -/
def Obligations.FlagsChangeOnlyWhereTheTableSays : Prop :=
  (∀ (i : Instr) (s t : State), writesFlags i = false → exec i s = .next t → t.flags = s.flags) ∧
  ∀ s t : State, s.sampleInterrupts = .next t → t.flags = s.flags

/-- Only SIM and RESET change the masks and SOD (R34, R37, R248: "the masks and SOD do not change"). -/
def Obligations.MasksAndSodChangeOnlyBySim : Prop :=
  ∀ s t : State, step s = .next t → s.env.input.resetIn = false → (s.halted = true ∨ s.fetch.1 ≠ .sim) →
    t.int.m55 = s.int.m55 ∧ t.int.m65 = s.int.m65 ∧ t.int.m75 = s.int.m75 ∧ t.sod = s.sod

/-- Only EI sets INTE (R33). -/
def Obligations.OnlyEiEnablesInterrupts : Prop :=
  ∀ s t : State, step s = .next t → s.int.inte = false → t.int.inte = true →
    s.fetches = true ∧ s.fetch.1 = .ei

/-- ei_delay never outlives its step: the sampling and RESET clear it (R39 a, R246, R270). -/
def Obligations.EveryStepClearsTheEiDelay : Prop :=
  ∀ s t : State, step s = .next t → t.int.eiDelay = false

/-- A pending RST 7.5 request is lost only by RESET, by its acceptance or by SIM with bit 4 of A; an edge is never lost
in the step it comes in, but by acceptance (R35, R243). -/
def Obligations.RestartSevenFiveStaysPending : Prop :=
  ∀ s t : State, step s = .next t → s.env.input.resetIn = false → t.int.r75 = false → t.pc ≠ 0x003C →
    s.env.input.pins.r75Edge = false ∧
    (s.int.r75 = true → s.fetches = true ∧ s.fetch.1 = .sim ∧ (s.reg .a).getLsbD 4 = true)

/-! ### Interrupts (spec/60_exceptions) -/

/-- The sampling point: the edges set their latches, ei_delay is cleared, and of the requests that pass their test the
first of TRAP, RST 7.5, RST 6.5, RST 5.5, INTR is taken, the last four only with INTE = 1 and ei_delay = 0 before it; at
most one is taken (R246, R247 b). -/
def Obligations.SamplingTakesTheFirstRequest : Prop :=
  ∀ s : State, let p := s.env.input.pins
    s.sampleInterrupts =
      if (s.int.trapff = true ∨ p.trapEdge = true) ∧ p.trapLevel = true then s.sampled.takeInterrupt .trap
      else if s.int.inte = true ∧ s.int.eiDelay = false then
        if (s.int.r75 = true ∨ p.r75Edge = true) ∧ s.int.m75 = false then s.sampled.takeInterrupt .rst75
        else if p.r65Level = true ∧ s.int.m65 = false then s.sampled.takeInterrupt .rst65
        else if p.r55Level = true ∧ s.int.m55 = false then s.sampled.takeInterrupt .rst55
        else if p.intrLevel = true then s.sampled.takeInterrupt .intr
        else .next s.sampled
      else .next s.sampled

/-- Entry for the four interrupts with an address of their own: pc itself is pushed, INTE and halted are cleared, TRAP
saves INTE in trap_ie and clears its latch, RST 7.5 clears its latch; registers, flags, masks and SOD do not change
(R248). -/
def Obligations.InterruptEntry : Prop :=
  ∀ s : State, ∀ p ∈ ([(.trap, 0x0024), (.rst75, 0x003C), (.rst65, 0x0034), (.rst55, 0x002C)] :
      List (Interrupt × Word)),
    ∃ t, s.takeInterrupt p.1 = .next t ∧ t.pc = p.2 ∧ t.sp = s.sp - 2 ∧
      Wrote s t s.env (s.pushWrites (hiByte s.pc) (loByte s.pc)) ∧
      t.int = { s.int with
        inte := false
        r75 := if p.1 = .rst75 then false else s.int.r75
        trapff := if p.1 = .trap then false else s.int.trapff
        trapIe := if p.1 = .trap then some s.int.inte else s.int.trapIe } ∧
      t.halted = false ∧ t.regs = s.regs ∧ t.flags = s.flags ∧ t.sod = s.sod

/-- Entry for INTR: the device answers RST n, or CALL and an address, low byte first; pc itself is pushed; any other
first byte is outside the spec and has no next state (R250, U6). That the answers stand in a list is the model's choice
(log 11). -/
def Obligations.InterruptAcknowledge : Prop :=
  ∀ (s : State) (v lo hi : Byte) (vs : List Byte) (n : BitVec 3),
    (s.env.ackAnswers = (0b11#2 ++ n ++ 0b111#3) :: vs →
      ∃ t, s.takeInterrupt .intr = .next t ∧ t.pc.toNat = 8 * n.toNat ∧ t.sp = s.sp - 2 ∧
        Wrote s t { s.env with
          ackAnswers := vs
          events := .acknowledge (0b11#2 ++ n ++ 0b111#3) :: s.env.events
          draws := t.env.draws } (s.pushWrites (hiByte s.pc) (loByte s.pc)) ∧
        t.int = { s.int with inte := false } ∧ t.halted = false ∧ t.regs = s.regs ∧ t.flags = s.flags ∧
        t.sod = s.sod) ∧
    (s.env.ackAnswers = 0xCD :: lo :: hi :: vs →
      ∃ t, s.takeInterrupt .intr = .next t ∧ t.pc = wordOf hi lo ∧ t.sp = s.sp - 2 ∧
        Wrote s t { s.env with
          ackAnswers := vs
          events := .acknowledge hi :: .acknowledge lo :: .acknowledge 0xCD :: s.env.events
          draws := t.env.draws } (s.pushWrites (hiByte s.pc) (loByte s.pc)) ∧
        t.int = { s.int with inte := false } ∧ t.halted = false ∧ t.regs = s.regs ∧ t.flags = s.flags ∧
        t.sod = s.sod) ∧
    (s.env.ackAnswers = v :: vs → isAcknowledgeByte v = false →
      s.takeInterrupt .intr = .refused (.acknowledgeByte v))

/-- An interrupt whose return address goes to RAM and the RET of its routine resume the interrupted program: pc, SP, the
registers and the flags are as before, and INTE stays 0 (R248, R252). -/
def Obligations.InterruptThenReturnResumes : Prop :=
  ∀ (s : State) (x : Interrupt), x ≠ .intr → s.kindAt (s.sp - 1) = .ram → s.kindAt (s.sp - 2) = .ram →
    ∃ t u, s.takeInterrupt x = .next t ∧ exec .ret t = .next u ∧ u.pc = s.pc ∧ u.sp = s.sp ∧ u.regs = s.regs ∧
      u.flags = s.flags ∧ u.int.inte = false ∧ u.env = s.env

/-- The step that runs EI takes no maskable interrupt, whatever is pending: without a TRAP it ends after the EI with INTE
set (R222, R253). -/
def Obligations.EiStepTakesNoMaskableInterrupt : Prop :=
  ∀ s : State, s.fetches = true → s.codeStored = true → s.byteAt s.pc = 0xFB →
    trapComes s.int s.env.input.pins = false →
      ∃ t, step s = .next t ∧ t.pc = s.pc + 1 ∧ t.sp = s.sp ∧ t.int.inte = true ∧ t.int.eiDelay = false ∧
        t.halted = false ∧ ∀ b, t.byteAt b = s.byteAt b

/-- EI; RET returns before it nests: with RST 7.5 pending and unmasked, the RET completes, and the interrupt that follows
it pushes back the very address the RET popped, so SP and memory are as before (R253: "EI; RET returns before
nesting"). With no input left every pin is quiet (log 9). -/
def Obligations.EiThenReturnReturnsFirst : Prop :=
  ∀ s : State, s.fetches = true → s.env.memMap = [] → s.env.inputs = [] → s.byteAt s.pc = 0xFB →
    s.byteAt (s.pc + 1) = 0xC9 → s.int.r75 = true → s.int.m75 = false →
      ∃ t u, step s = .next t ∧ t.pc = s.pc + 1 ∧ step t = .next u ∧ u.pc = 0x003C ∧ u.sp = s.sp ∧
        u.int.inte = false ∧ u.int.r75 = false ∧ ∀ b, u.byteAt b = s.byteAt b

/-- A halted processor with INTE = 0 is left halted by every step but RESET and TRAP; pc and registers stay (R221,
R251). -/
def Obligations.DisabledHaltEndsOnlyByTrapOrReset : Prop :=
  ∀ s t : State, s.halted = true → s.int.inte = false → s.env.input.resetIn = false →
    trapComes s.int s.env.input.pins = false → step s = .next t →
      t.halted = true ∧ t.pc = s.pc ∧ t.sp = s.sp ∧ t.regs = s.regs ∧ t.flags = s.flags ∧
      ∀ b, t.byteAt b = s.byteAt b

/-- A run that has ended stays ended: the next step exists, changes no register, flag, SP, pc or memory, and the run has
still ended after it (R276). That no request comes after the last input is the spec's default of IntEnv and the model's
choice (log 9). -/
def Obligations.EndedRunStaysEnded : Prop :=
  ∀ s : State, s.runEnded = true →
    ∃ t, step s = .next t ∧ t.runEnded = true ∧ t.halted = true ∧ t.regs = s.regs ∧ t.flags = s.flags ∧
      t.sp = s.sp ∧ t.pc = s.pc ∧ t.sod = s.sod ∧ t.mem = s.mem ∧ t.env.events = s.env.events

/-! ### Reset (spec/10_state R41, spec/70_reset_and_hazards R270) -/

/-- RESET IN asserted at the head of a step: the fixed values of R270, in any state, halted or not, whatever is pending;
memory is not touched and the only thing told outside is a change of SOD (logs 17, 20). -/
def Obligations.ResetEventFixedValues : Prop :=
  ∀ s : State, s.env.input.resetIn = true →
    ∃ t, step s = .next t ∧ t.pc = 0x0000 ∧ t.int.inte = false ∧ t.int.m55 = true ∧ t.int.m65 = true ∧
      t.int.m75 = true ∧ t.int.r75 = false ∧ t.int.trapff = false ∧ t.sod = false ∧ t.halted = false ∧
      t.int.eiDelay = false ∧ t.int.trapIe = none ∧ (∀ b, t.byteAt b = s.byteAt b) ∧
      t.env.memMap = s.env.memMap ∧
      t.env.events = (if s.sod = true then .sodChange false :: s.env.events else s.env.events)

/-- RESET carries no register, flag or stack pointer over: two states with the same platform have the same ones after it,
whatever they held before (R41: "a model must not carry register values across a reset"; the model draws them afresh,
log 3). -/
def Obligations.ResetForgetsTheRegisters : Prop :=
  ∀ s s' t t' : State, s'.env = s.env → s.env.input.resetIn = true → step s = .next t → step s' = .next t' →
    t'.regs = t.regs ∧ t'.flags = t.flags ∧ t'.sp = t.sp

/-- The values the spec fixes for reset, in the reset state (R41); those it leaves unspecified are not stated. -/
def Obligations.ResetStateFixedValues : Prop :=
  State.reset.pc = 0x0000 ∧ State.reset.int.inte = false ∧ State.reset.int.m55 = true ∧
  State.reset.int.m65 = true ∧ State.reset.int.m75 = true ∧ State.reset.int.r75 = false ∧
  State.reset.int.trapff = false ∧ State.reset.sod = false ∧ State.reset.halted = false ∧
  State.reset.int.eiDelay = false ∧ State.reset.int.trapIe = none
end

