-- ==== Sys2Proof/Laws/Decode.lean ====
section
/-! SUPPORT. The decoder on every opcode byte: what each byte it does not need leaves out. -/

namespace Sys2Proof

/-- A property of every byte, from the property of the 256 numerals. -/
theorem byte_cases {P : Byte → Prop} (h : ∀ n : Fin 256, P (BitVec.ofFin n)) (v : Byte) : P v := h v.toFin

/-- Every instruction is one, two or three bytes long (R70). -/
theorem opcodeLength_cases (op : Byte) : opcodeLength op = 1 ∨ opcodeLength op = 2 ∨ opcodeLength op = 3 := by
  revert op; decide

/-- A one-byte instruction needs its opcode only. -/
theorem decode_of_length_one (op b2 b3 : Byte) (h : opcodeLength op = 1) : decode op b2 b3 = decode op 0 0 := by
  revert h
  revert op
  apply byte_cases
  intro n
  fin_cases n <;> first | exact fun _ => rfl | exact fun h => absurd h (by decide)

/-- A two-byte instruction needs two bytes only. -/
theorem decode_of_length_two (op b2 b3 : Byte) (h : opcodeLength op = 2) : decode op b2 b3 = decode op b2 0 := by
  revert h
  revert op
  apply byte_cases
  intro n
  fin_cases n <;> first | exact fun _ => rfl | exact fun h => absurd h (by decide)

theorem decodeBytes_one (op : Byte) (rest : List Byte) (h : opcodeLength op = 1) :
    decodeBytes (op :: rest) = .instr (decode op 0 0) rest := by
  cases rest <;> simp [decodeBytes, h]

theorem decodeBytes_two (op b2 : Byte) (rest : List Byte) (h : opcodeLength op = 2) :
    decodeBytes (op :: b2 :: rest) = .instr (decode op b2 0) rest := by
  simp [decodeBytes, h]

theorem decodeBytes_three (op b2 b3 : Byte) (rest : List Byte) (h : opcodeLength op = 3) :
    decodeBytes (op :: b2 :: b3 :: rest) = .instr (decode op b2 b3) rest := by
  simp [decodeBytes, h]

/-- Three bytes always decode, and to the instruction that `decode` makes of them (R70, R73). -/
theorem decodeBytes_full (op b2 b3 : Byte) : ∃ rest, decodeBytes [op, b2, b3] = .instr (decode op b2 b3) rest := by
  rcases opcodeLength_cases op with h | h | h
  · exact ⟨_, by rw [decodeBytes_one op _ h, decode_of_length_one op b2 b3 h]⟩
  · exact ⟨_, by rw [decodeBytes_two op b2 _ h, decode_of_length_two op b2 b3 h]⟩
  · exact ⟨_, by rw [decodeBytes_three op b2 b3 _ h]⟩

end Sys2Proof
end

