-- ==== Sys2Proof/Laws/State.lean ====
section
/-! SUPPORT. One lemma for each field and each named update of the state: what the update leaves and what it writes. No
proof need unfold a record update. -/

namespace Sys2Proof.Machine

/-! ### PC, SP, the registers and the flags -/

@[simp] theorem State.advance_regs (s : State) (n : Word) : (s.advance n).regs = s.regs := rfl
@[simp] theorem State.advance_flags (s : State) (n : Word) : (s.advance n).flags = s.flags := rfl
@[simp] theorem State.advance_sp (s : State) (n : Word) : (s.advance n).sp = s.sp := rfl
@[simp] theorem State.advance_pc (s : State) (n : Word) : (s.advance n).pc = s.pc + n := rfl
@[simp] theorem State.advance_int (s : State) (n : Word) : (s.advance n).int = s.int := rfl
@[simp] theorem State.advance_sod (s : State) (n : Word) : (s.advance n).sod = s.sod := rfl
@[simp] theorem State.advance_halted (s : State) (n : Word) : (s.advance n).halted = s.halted := rfl
@[simp] theorem State.advance_mem (s : State) (n : Word) : (s.advance n).mem = s.mem := rfl
@[simp] theorem State.advance_env (s : State) (n : Word) : (s.advance n).env = s.env := rfl
@[simp] theorem State.advance_byteAt (s : State) (n : Word) (x : Word) : (s.advance n).byteAt x = s.byteAt x := rfl
@[simp] theorem State.advance_kindAt (s : State) (n : Word) (x : Word) : (s.advance n).kindAt x = s.kindAt x := rfl
@[simp] theorem State.setPc_regs (s : State) (a : Word) : (s.setPc a).regs = s.regs := rfl
@[simp] theorem State.setPc_flags (s : State) (a : Word) : (s.setPc a).flags = s.flags := rfl
@[simp] theorem State.setPc_sp (s : State) (a : Word) : (s.setPc a).sp = s.sp := rfl
@[simp] theorem State.setPc_pc (s : State) (a : Word) : (s.setPc a).pc = a := rfl
@[simp] theorem State.setPc_int (s : State) (a : Word) : (s.setPc a).int = s.int := rfl
@[simp] theorem State.setPc_sod (s : State) (a : Word) : (s.setPc a).sod = s.sod := rfl
@[simp] theorem State.setPc_halted (s : State) (a : Word) : (s.setPc a).halted = s.halted := rfl
@[simp] theorem State.setPc_mem (s : State) (a : Word) : (s.setPc a).mem = s.mem := rfl
@[simp] theorem State.setPc_env (s : State) (a : Word) : (s.setPc a).env = s.env := rfl
@[simp] theorem State.setPc_byteAt (s : State) (a : Word) (x : Word) : (s.setPc a).byteAt x = s.byteAt x := rfl
@[simp] theorem State.setPc_kindAt (s : State) (a : Word) (x : Word) : (s.setPc a).kindAt x = s.kindAt x := rfl
@[simp] theorem State.setSp_regs (s : State) (a : Word) : (s.setSp a).regs = s.regs := rfl
@[simp] theorem State.setSp_flags (s : State) (a : Word) : (s.setSp a).flags = s.flags := rfl
@[simp] theorem State.setSp_sp (s : State) (a : Word) : (s.setSp a).sp = a := rfl
@[simp] theorem State.setSp_pc (s : State) (a : Word) : (s.setSp a).pc = s.pc := rfl
@[simp] theorem State.setSp_int (s : State) (a : Word) : (s.setSp a).int = s.int := rfl
@[simp] theorem State.setSp_sod (s : State) (a : Word) : (s.setSp a).sod = s.sod := rfl
@[simp] theorem State.setSp_halted (s : State) (a : Word) : (s.setSp a).halted = s.halted := rfl
@[simp] theorem State.setSp_mem (s : State) (a : Word) : (s.setSp a).mem = s.mem := rfl
@[simp] theorem State.setSp_env (s : State) (a : Word) : (s.setSp a).env = s.env := rfl
@[simp] theorem State.setSp_byteAt (s : State) (a : Word) (x : Word) : (s.setSp a).byteAt x = s.byteAt x := rfl
@[simp] theorem State.setSp_kindAt (s : State) (a : Word) (x : Word) : (s.setSp a).kindAt x = s.kindAt x := rfl
@[simp] theorem State.setReg_regs (s : State) (r : Reg) (v : Byte) : (s.setReg r v).regs = s.regs.set r v := rfl
@[simp] theorem State.setReg_flags (s : State) (r : Reg) (v : Byte) : (s.setReg r v).flags = s.flags := rfl
@[simp] theorem State.setReg_sp (s : State) (r : Reg) (v : Byte) : (s.setReg r v).sp = s.sp := rfl
@[simp] theorem State.setReg_pc (s : State) (r : Reg) (v : Byte) : (s.setReg r v).pc = s.pc := rfl
@[simp] theorem State.setReg_int (s : State) (r : Reg) (v : Byte) : (s.setReg r v).int = s.int := rfl
@[simp] theorem State.setReg_sod (s : State) (r : Reg) (v : Byte) : (s.setReg r v).sod = s.sod := rfl
@[simp] theorem State.setReg_halted (s : State) (r : Reg) (v : Byte) : (s.setReg r v).halted = s.halted := rfl
@[simp] theorem State.setReg_mem (s : State) (r : Reg) (v : Byte) : (s.setReg r v).mem = s.mem := rfl
@[simp] theorem State.setReg_env (s : State) (r : Reg) (v : Byte) : (s.setReg r v).env = s.env := rfl
@[simp] theorem State.setReg_byteAt (s : State) (r : Reg) (v : Byte) (x : Word) : (s.setReg r v).byteAt x = s.byteAt x := rfl
@[simp] theorem State.setReg_kindAt (s : State) (r : Reg) (v : Byte) (x : Word) : (s.setReg r v).kindAt x = s.kindAt x := rfl
@[simp] theorem State.setFlags_regs (s : State) (f : Flags) : (s.setFlags f).regs = s.regs := rfl
@[simp] theorem State.setFlags_flags (s : State) (f : Flags) : (s.setFlags f).flags = f := rfl
@[simp] theorem State.setFlags_sp (s : State) (f : Flags) : (s.setFlags f).sp = s.sp := rfl
@[simp] theorem State.setFlags_pc (s : State) (f : Flags) : (s.setFlags f).pc = s.pc := rfl
@[simp] theorem State.setFlags_int (s : State) (f : Flags) : (s.setFlags f).int = s.int := rfl
@[simp] theorem State.setFlags_sod (s : State) (f : Flags) : (s.setFlags f).sod = s.sod := rfl
@[simp] theorem State.setFlags_halted (s : State) (f : Flags) : (s.setFlags f).halted = s.halted := rfl
@[simp] theorem State.setFlags_mem (s : State) (f : Flags) : (s.setFlags f).mem = s.mem := rfl
@[simp] theorem State.setFlags_env (s : State) (f : Flags) : (s.setFlags f).env = s.env := rfl
@[simp] theorem State.setFlags_byteAt (s : State) (f : Flags) (x : Word) : (s.setFlags f).byteAt x = s.byteAt x := rfl
@[simp] theorem State.setFlags_kindAt (s : State) (f : Flags) (x : Word) : (s.setFlags f).kindAt x = s.kindAt x := rfl
@[simp] theorem State.setPair_flags (s : State) (p : RegPair) (w : Word) : (s.setPair p w).flags = s.flags := by cases p <;> rfl
@[simp] theorem State.setPair_pc (s : State) (p : RegPair) (w : Word) : (s.setPair p w).pc = s.pc := by cases p <;> rfl
@[simp] theorem State.setPair_int (s : State) (p : RegPair) (w : Word) : (s.setPair p w).int = s.int := by cases p <;> rfl
@[simp] theorem State.setPair_sod (s : State) (p : RegPair) (w : Word) : (s.setPair p w).sod = s.sod := by cases p <;> rfl
@[simp] theorem State.setPair_halted (s : State) (p : RegPair) (w : Word) : (s.setPair p w).halted = s.halted := by cases p <;> rfl
@[simp] theorem State.setPair_mem (s : State) (p : RegPair) (w : Word) : (s.setPair p w).mem = s.mem := by cases p <;> rfl
@[simp] theorem State.setPair_env (s : State) (p : RegPair) (w : Word) : (s.setPair p w).env = s.env := by cases p <;> rfl
@[simp] theorem State.setPair_byteAt (s : State) (p : RegPair) (w : Word) (x : Word) : (s.setPair p w).byteAt x = s.byteAt x := by cases p <;> rfl
@[simp] theorem State.setPair_kindAt (s : State) (p : RegPair) (w : Word) (x : Word) : (s.setPair p w).kindAt x = s.kindAt x := by cases p <;> rfl

/-! ### Memory and port accesses -/

@[simp] theorem State.memRead_regs (s : State) (a : Word) : (s.memRead a).2.regs = s.regs := rfl
@[simp] theorem State.memRead_flags (s : State) (a : Word) : (s.memRead a).2.flags = s.flags := rfl
@[simp] theorem State.memRead_sp (s : State) (a : Word) : (s.memRead a).2.sp = s.sp := rfl
@[simp] theorem State.memRead_pc (s : State) (a : Word) : (s.memRead a).2.pc = s.pc := rfl
@[simp] theorem State.memRead_int (s : State) (a : Word) : (s.memRead a).2.int = s.int := rfl
@[simp] theorem State.memRead_sod (s : State) (a : Word) : (s.memRead a).2.sod = s.sod := rfl
@[simp] theorem State.memRead_halted (s : State) (a : Word) : (s.memRead a).2.halted = s.halted := rfl
@[simp] theorem State.memRead_mem (s : State) (a : Word) : (s.memRead a).2.mem = s.mem := rfl
@[simp] theorem State.memRead_env (s : State) (a : Word) : (s.memRead a).2.env = (s.env.read a (s.byteAt a)).2 := rfl
@[simp] theorem State.memRead_byteAt (s : State) (a : Word) (x : Word) : (s.memRead a).2.byteAt x = s.byteAt x := rfl
@[simp] theorem State.memWrite_regs (s : State) (a : Word) (v : Byte) : (s.memWrite a v).regs = s.regs := rfl
@[simp] theorem State.memWrite_flags (s : State) (a : Word) (v : Byte) : (s.memWrite a v).flags = s.flags := rfl
@[simp] theorem State.memWrite_sp (s : State) (a : Word) (v : Byte) : (s.memWrite a v).sp = s.sp := rfl
@[simp] theorem State.memWrite_pc (s : State) (a : Word) (v : Byte) : (s.memWrite a v).pc = s.pc := rfl
@[simp] theorem State.memWrite_int (s : State) (a : Word) (v : Byte) : (s.memWrite a v).int = s.int := rfl
@[simp] theorem State.memWrite_sod (s : State) (a : Word) (v : Byte) : (s.memWrite a v).sod = s.sod := rfl
@[simp] theorem State.memWrite_halted (s : State) (a : Word) (v : Byte) : (s.memWrite a v).halted = s.halted := rfl
@[simp] theorem State.memWrite_mem (s : State) (a : Word) (v : Byte) : (s.memWrite a v).mem = s.memAfterWrite a v := rfl
@[simp] theorem State.memWrite_env (s : State) (a : Word) (v : Byte) : (s.memWrite a v).env = s.env.write a v := rfl
@[simp] theorem State.memRead16_regs (s : State) (a : Word) : (s.memRead16 a).2.regs = s.regs := rfl
@[simp] theorem State.memRead16_flags (s : State) (a : Word) : (s.memRead16 a).2.flags = s.flags := rfl
@[simp] theorem State.memRead16_sp (s : State) (a : Word) : (s.memRead16 a).2.sp = s.sp := rfl
@[simp] theorem State.memRead16_pc (s : State) (a : Word) : (s.memRead16 a).2.pc = s.pc := rfl
@[simp] theorem State.memRead16_int (s : State) (a : Word) : (s.memRead16 a).2.int = s.int := rfl
@[simp] theorem State.memRead16_sod (s : State) (a : Word) : (s.memRead16 a).2.sod = s.sod := rfl
@[simp] theorem State.memRead16_halted (s : State) (a : Word) : (s.memRead16 a).2.halted = s.halted := rfl
@[simp] theorem State.memRead16_mem (s : State) (a : Word) : (s.memRead16 a).2.mem = s.mem := rfl
@[simp] theorem State.memRead16_env (s : State) (a : Word) : (s.memRead16 a).2.env = ((s.memRead a).2.memRead (a + 1)).2.env := rfl
@[simp] theorem State.memRead16_byteAt (s : State) (a : Word) (x : Word) : (s.memRead16 a).2.byteAt x = s.byteAt x := rfl
@[simp] theorem State.memWrite16_regs (s : State) (a w : Word) : (s.memWrite16 a w).regs = s.regs := rfl
@[simp] theorem State.memWrite16_flags (s : State) (a w : Word) : (s.memWrite16 a w).flags = s.flags := rfl
@[simp] theorem State.memWrite16_sp (s : State) (a w : Word) : (s.memWrite16 a w).sp = s.sp := rfl
@[simp] theorem State.memWrite16_pc (s : State) (a w : Word) : (s.memWrite16 a w).pc = s.pc := rfl
@[simp] theorem State.memWrite16_int (s : State) (a w : Word) : (s.memWrite16 a w).int = s.int := rfl
@[simp] theorem State.memWrite16_sod (s : State) (a w : Word) : (s.memWrite16 a w).sod = s.sod := rfl
@[simp] theorem State.memWrite16_halted (s : State) (a w : Word) : (s.memWrite16 a w).halted = s.halted := rfl
@[simp] theorem State.ioRead_regs (s : State) (p : Byte) : (s.ioRead p).2.regs = s.regs := rfl
@[simp] theorem State.ioRead_flags (s : State) (p : Byte) : (s.ioRead p).2.flags = s.flags := rfl
@[simp] theorem State.ioRead_sp (s : State) (p : Byte) : (s.ioRead p).2.sp = s.sp := rfl
@[simp] theorem State.ioRead_pc (s : State) (p : Byte) : (s.ioRead p).2.pc = s.pc := rfl
@[simp] theorem State.ioRead_int (s : State) (p : Byte) : (s.ioRead p).2.int = s.int := rfl
@[simp] theorem State.ioRead_sod (s : State) (p : Byte) : (s.ioRead p).2.sod = s.sod := rfl
@[simp] theorem State.ioRead_halted (s : State) (p : Byte) : (s.ioRead p).2.halted = s.halted := rfl
@[simp] theorem State.ioRead_mem (s : State) (p : Byte) : (s.ioRead p).2.mem = s.mem := rfl
@[simp] theorem State.ioRead_env (s : State) (p : Byte) : (s.ioRead p).2.env = (s.env.readPort p).2 := rfl
@[simp] theorem State.ioRead_byteAt (s : State) (p : Byte) (x : Word) : (s.ioRead p).2.byteAt x = s.byteAt x := rfl
@[simp] theorem State.ioWrite_regs (s : State) (p v : Byte) : (s.ioWrite p v).regs = s.regs := rfl
@[simp] theorem State.ioWrite_flags (s : State) (p v : Byte) : (s.ioWrite p v).flags = s.flags := rfl
@[simp] theorem State.ioWrite_sp (s : State) (p v : Byte) : (s.ioWrite p v).sp = s.sp := rfl
@[simp] theorem State.ioWrite_pc (s : State) (p v : Byte) : (s.ioWrite p v).pc = s.pc := rfl
@[simp] theorem State.ioWrite_int (s : State) (p v : Byte) : (s.ioWrite p v).int = s.int := rfl
@[simp] theorem State.ioWrite_sod (s : State) (p v : Byte) : (s.ioWrite p v).sod = s.sod := rfl
@[simp] theorem State.ioWrite_halted (s : State) (p v : Byte) : (s.ioWrite p v).halted = s.halted := rfl
@[simp] theorem State.ioWrite_mem (s : State) (p v : Byte) : (s.ioWrite p v).mem = s.mem := rfl
@[simp] theorem State.ioWrite_env (s : State) (p v : Byte) : (s.ioWrite p v).env = s.env.tell (.portWrite p v) := rfl
@[simp] theorem State.ioWrite_byteAt (s : State) (p v : Byte) (x : Word) : (s.ioWrite p v).byteAt x = s.byteAt x := rfl
@[simp] theorem State.draw_regs (s : State) : s.draw.2.regs = s.regs := rfl
@[simp] theorem State.draw_flags (s : State) : s.draw.2.flags = s.flags := rfl
@[simp] theorem State.draw_sp (s : State) : s.draw.2.sp = s.sp := rfl
@[simp] theorem State.draw_pc (s : State) : s.draw.2.pc = s.pc := rfl
@[simp] theorem State.draw_int (s : State) : s.draw.2.int = s.int := rfl
@[simp] theorem State.draw_sod (s : State) : s.draw.2.sod = s.sod := rfl
@[simp] theorem State.draw_halted (s : State) : s.draw.2.halted = s.halted := rfl
@[simp] theorem State.draw_mem (s : State) : s.draw.2.mem = s.mem := rfl
@[simp] theorem State.draw_env (s : State) : s.draw.2.env = s.env.draw.2 := rfl
@[simp] theorem State.draw_byteAt (s : State) (x : Word) : s.draw.2.byteAt x = s.byteAt x := rfl
@[simp] theorem State.readM_regs (s : State) : s.readM.2.regs = s.regs := rfl
@[simp] theorem State.readM_flags (s : State) : s.readM.2.flags = s.flags := rfl
@[simp] theorem State.readM_sp (s : State) : s.readM.2.sp = s.sp := rfl
@[simp] theorem State.readM_pc (s : State) : s.readM.2.pc = s.pc := rfl
@[simp] theorem State.readM_int (s : State) : s.readM.2.int = s.int := rfl
@[simp] theorem State.readM_sod (s : State) : s.readM.2.sod = s.sod := rfl
@[simp] theorem State.readM_halted (s : State) : s.readM.2.halted = s.halted := rfl
@[simp] theorem State.readM_mem (s : State) : s.readM.2.mem = s.mem := rfl
@[simp] theorem State.readM_env (s : State) : s.readM.2.env = (s.env.read s.hl (s.byteAt s.hl)).2 := rfl
@[simp] theorem State.readM_byteAt (s : State) (x : Word) : s.readM.2.byteAt x = s.byteAt x := rfl
@[simp] theorem State.writeM_regs (s : State) (v : Byte) : (s.writeM v).regs = s.regs := rfl
@[simp] theorem State.writeM_flags (s : State) (v : Byte) : (s.writeM v).flags = s.flags := rfl
@[simp] theorem State.writeM_sp (s : State) (v : Byte) : (s.writeM v).sp = s.sp := rfl
@[simp] theorem State.writeM_pc (s : State) (v : Byte) : (s.writeM v).pc = s.pc := rfl
@[simp] theorem State.writeM_int (s : State) (v : Byte) : (s.writeM v).int = s.int := rfl
@[simp] theorem State.writeM_sod (s : State) (v : Byte) : (s.writeM v).sod = s.sod := rfl
@[simp] theorem State.writeM_halted (s : State) (v : Byte) : (s.writeM v).halted = s.halted := rfl
@[simp] theorem State.writeM_mem (s : State) (v : Byte) : (s.writeM v).mem = s.memAfterWrite s.hl v := rfl
@[simp] theorem State.writeM_env (s : State) (v : Byte) : (s.writeM v).env = s.env.write s.hl v := rfl

/-! ### The stack -/

@[simp] theorem State.pushBytes_regs (s : State) (hi lo : Byte) : (s.pushBytes hi lo).regs = s.regs := rfl
@[simp] theorem State.pushBytes_flags (s : State) (hi lo : Byte) : (s.pushBytes hi lo).flags = s.flags := rfl
@[simp] theorem State.pushBytes_sp (s : State) (hi lo : Byte) : (s.pushBytes hi lo).sp = s.sp - 2 := rfl
@[simp] theorem State.pushBytes_pc (s : State) (hi lo : Byte) : (s.pushBytes hi lo).pc = s.pc := rfl
@[simp] theorem State.pushBytes_int (s : State) (hi lo : Byte) : (s.pushBytes hi lo).int = s.int := rfl
@[simp] theorem State.pushBytes_sod (s : State) (hi lo : Byte) : (s.pushBytes hi lo).sod = s.sod := rfl
@[simp] theorem State.pushBytes_halted (s : State) (hi lo : Byte) : (s.pushBytes hi lo).halted = s.halted := rfl
@[simp] theorem State.pushWord_regs (s : State) (w : Word) : (s.pushWord w).regs = s.regs := rfl
@[simp] theorem State.pushWord_flags (s : State) (w : Word) : (s.pushWord w).flags = s.flags := rfl
@[simp] theorem State.pushWord_sp (s : State) (w : Word) : (s.pushWord w).sp = s.sp - 2 := rfl
@[simp] theorem State.pushWord_pc (s : State) (w : Word) : (s.pushWord w).pc = s.pc := rfl
@[simp] theorem State.pushWord_int (s : State) (w : Word) : (s.pushWord w).int = s.int := rfl
@[simp] theorem State.pushWord_sod (s : State) (w : Word) : (s.pushWord w).sod = s.sod := rfl
@[simp] theorem State.pushWord_halted (s : State) (w : Word) : (s.pushWord w).halted = s.halted := rfl
@[simp] theorem State.popWord_regs (s : State) : s.popWord.2.regs = s.regs := rfl
@[simp] theorem State.popWord_flags (s : State) : s.popWord.2.flags = s.flags := rfl
@[simp] theorem State.popWord_sp (s : State) : s.popWord.2.sp = s.sp + 2 := rfl
@[simp] theorem State.popWord_pc (s : State) : s.popWord.2.pc = s.pc := rfl
@[simp] theorem State.popWord_int (s : State) : s.popWord.2.int = s.int := rfl
@[simp] theorem State.popWord_sod (s : State) : s.popWord.2.sod = s.sod := rfl
@[simp] theorem State.popWord_halted (s : State) : s.popWord.2.halted = s.halted := rfl
@[simp] theorem State.popWord_mem (s : State) : s.popWord.2.mem = s.mem := rfl
@[simp] theorem State.popWord_env (s : State) : s.popWord.2.env = (s.memRead16 s.sp).2.env := rfl
@[simp] theorem State.popWord_byteAt (s : State) (x : Word) : s.popWord.2.byteAt x = s.byteAt x := rfl
@[simp] theorem State.enter_regs (s : State) (a : Word) : (s.enter a).regs = s.regs := rfl
@[simp] theorem State.enter_flags (s : State) (a : Word) : (s.enter a).flags = s.flags := rfl
@[simp] theorem State.enter_sp (s : State) (a : Word) : (s.enter a).sp = s.sp - 2 := rfl
@[simp] theorem State.enter_pc (s : State) (a : Word) : (s.enter a).pc = a := rfl
@[simp] theorem State.enter_int (s : State) (a : Word) : (s.enter a).int = s.int := rfl
@[simp] theorem State.enter_sod (s : State) (a : Word) : (s.enter a).sod = s.sod := rfl
@[simp] theorem State.enter_halted (s : State) (a : Word) : (s.enter a).halted = s.halted := rfl
@[simp] theorem State.callTo_regs (s : State) (ret a : Word) : (s.callTo ret a).regs = s.regs := rfl
@[simp] theorem State.callTo_flags (s : State) (ret a : Word) : (s.callTo ret a).flags = s.flags := rfl
@[simp] theorem State.callTo_sp (s : State) (ret a : Word) : (s.callTo ret a).sp = s.sp - 2 := rfl
@[simp] theorem State.callTo_pc (s : State) (ret a : Word) : (s.callTo ret a).pc = a := rfl
@[simp] theorem State.callTo_int (s : State) (ret a : Word) : (s.callTo ret a).int = s.int := rfl
@[simp] theorem State.callTo_sod (s : State) (ret a : Word) : (s.callTo ret a).sod = s.sod := rfl
@[simp] theorem State.callTo_halted (s : State) (ret a : Word) : (s.callTo ret a).halted = s.halted := rfl
@[simp] theorem State.returnFromStack_regs (s : State) : s.returnFromStack.regs = s.regs := rfl
@[simp] theorem State.returnFromStack_flags (s : State) : s.returnFromStack.flags = s.flags := rfl
@[simp] theorem State.returnFromStack_sp (s : State) : s.returnFromStack.sp = s.sp + 2 := rfl
@[simp] theorem State.returnFromStack_pc (s : State) : s.returnFromStack.pc = s.popWord.1 := rfl
@[simp] theorem State.returnFromStack_int (s : State) : s.returnFromStack.int = s.int := rfl
@[simp] theorem State.returnFromStack_sod (s : State) : s.returnFromStack.sod = s.sod := rfl
@[simp] theorem State.returnFromStack_halted (s : State) : s.returnFromStack.halted = s.halted := rfl
@[simp] theorem State.returnFromStack_mem (s : State) : s.returnFromStack.mem = s.mem := rfl
@[simp] theorem State.returnFromStack_env (s : State) : s.returnFromStack.env = (s.memRead16 s.sp).2.env := rfl
@[simp] theorem State.returnFromStack_byteAt (s : State) (x : Word) : s.returnFromStack.byteAt x = s.byteAt x := rfl
@[simp] theorem State.jumpIf_regs (s : State) (k : Cond) (a : Word) : (s.jumpIf k a).regs = s.regs := by unfold State.jumpIf; split <;> rfl
@[simp] theorem State.jumpIf_flags (s : State) (k : Cond) (a : Word) : (s.jumpIf k a).flags = s.flags := by unfold State.jumpIf; split <;> rfl
@[simp] theorem State.jumpIf_sp (s : State) (k : Cond) (a : Word) : (s.jumpIf k a).sp = s.sp := by unfold State.jumpIf; split <;> rfl
@[simp] theorem State.jumpIf_int (s : State) (k : Cond) (a : Word) : (s.jumpIf k a).int = s.int := by unfold State.jumpIf; split <;> rfl
@[simp] theorem State.jumpIf_sod (s : State) (k : Cond) (a : Word) : (s.jumpIf k a).sod = s.sod := by unfold State.jumpIf; split <;> rfl
@[simp] theorem State.jumpIf_halted (s : State) (k : Cond) (a : Word) : (s.jumpIf k a).halted = s.halted := by unfold State.jumpIf; split <;> rfl
@[simp] theorem State.jumpIf_mem (s : State) (k : Cond) (a : Word) : (s.jumpIf k a).mem = s.mem := by unfold State.jumpIf; split <;> rfl
@[simp] theorem State.jumpIf_env (s : State) (k : Cond) (a : Word) : (s.jumpIf k a).env = s.env := by unfold State.jumpIf; split <;> rfl
@[simp] theorem State.jumpIf_byteAt (s : State) (k : Cond) (a : Word) (x : Word) : (s.jumpIf k a).byteAt x = s.byteAt x := by unfold State.jumpIf; split <;> rfl
@[simp] theorem State.jumpIf_kindAt (s : State) (k : Cond) (a : Word) (x : Word) : (s.jumpIf k a).kindAt x = s.kindAt x := by unfold State.jumpIf; split <;> rfl
@[simp] theorem State.callIf_regs (s : State) (k : Cond) (a : Word) : (s.callIf k a).regs = s.regs := by unfold State.callIf; split <;> rfl
@[simp] theorem State.callIf_flags (s : State) (k : Cond) (a : Word) : (s.callIf k a).flags = s.flags := by unfold State.callIf; split <;> rfl
@[simp] theorem State.callIf_int (s : State) (k : Cond) (a : Word) : (s.callIf k a).int = s.int := by unfold State.callIf; split <;> rfl
@[simp] theorem State.callIf_sod (s : State) (k : Cond) (a : Word) : (s.callIf k a).sod = s.sod := by unfold State.callIf; split <;> rfl
@[simp] theorem State.callIf_halted (s : State) (k : Cond) (a : Word) : (s.callIf k a).halted = s.halted := by unfold State.callIf; split <;> rfl
@[simp] theorem State.returnIf_regs (s : State) (k : Cond) : (s.returnIf k).regs = s.regs := by unfold State.returnIf; split <;> rfl
@[simp] theorem State.returnIf_flags (s : State) (k : Cond) : (s.returnIf k).flags = s.flags := by unfold State.returnIf; split <;> rfl
@[simp] theorem State.returnIf_int (s : State) (k : Cond) : (s.returnIf k).int = s.int := by unfold State.returnIf; split <;> rfl
@[simp] theorem State.returnIf_sod (s : State) (k : Cond) : (s.returnIf k).sod = s.sod := by unfold State.returnIf; split <;> rfl
@[simp] theorem State.returnIf_halted (s : State) (k : Cond) : (s.returnIf k).halted = s.halted := by unfold State.returnIf; split <;> rfl
@[simp] theorem State.returnIf_mem (s : State) (k : Cond) : (s.returnIf k).mem = s.mem := by unfold State.returnIf; split <;> rfl
@[simp] theorem State.returnIf_byteAt (s : State) (k : Cond) (x : Word) : (s.returnIf k).byteAt x = s.byteAt x := by unfold State.returnIf; split <;> rfl

/-! ### Results -/

@[simp] theorem State.aluToA_regs (s : State) (y : AluResult) : (s.aluToA y).regs = s.regs.set .a y.r := rfl
@[simp] theorem State.aluToA_flags (s : State) (y : AluResult) : (s.aluToA y).flags = .ofAlu y := rfl
@[simp] theorem State.aluToA_sp (s : State) (y : AluResult) : (s.aluToA y).sp = s.sp := rfl
@[simp] theorem State.aluToA_pc (s : State) (y : AluResult) : (s.aluToA y).pc = s.pc := rfl
@[simp] theorem State.aluToA_int (s : State) (y : AluResult) : (s.aluToA y).int = s.int := rfl
@[simp] theorem State.aluToA_sod (s : State) (y : AluResult) : (s.aluToA y).sod = s.sod := rfl
@[simp] theorem State.aluToA_halted (s : State) (y : AluResult) : (s.aluToA y).halted = s.halted := rfl
@[simp] theorem State.aluToA_mem (s : State) (y : AluResult) : (s.aluToA y).mem = s.mem := rfl
@[simp] theorem State.aluToA_env (s : State) (y : AluResult) : (s.aluToA y).env = s.env := rfl
@[simp] theorem State.aluToA_byteAt (s : State) (y : AluResult) (x : Word) : (s.aluToA y).byteAt x = s.byteAt x := rfl
@[simp] theorem State.aluToA_kindAt (s : State) (y : AluResult) (x : Word) : (s.aluToA y).kindAt x = s.kindAt x := rfl
@[simp] theorem State.addToA_regs (s : State) (v : Byte) (c : Bool) : (s.addToA v c).regs = s.regs.set .a (add8 (s.reg .a) v c).r := rfl
@[simp] theorem State.addToA_flags (s : State) (v : Byte) (c : Bool) : (s.addToA v c).flags = .ofAlu (add8 (s.reg .a) v c) := rfl
@[simp] theorem State.addToA_sp (s : State) (v : Byte) (c : Bool) : (s.addToA v c).sp = s.sp := rfl
@[simp] theorem State.addToA_pc (s : State) (v : Byte) (c : Bool) : (s.addToA v c).pc = s.pc := rfl
@[simp] theorem State.addToA_int (s : State) (v : Byte) (c : Bool) : (s.addToA v c).int = s.int := rfl
@[simp] theorem State.addToA_sod (s : State) (v : Byte) (c : Bool) : (s.addToA v c).sod = s.sod := rfl
@[simp] theorem State.addToA_halted (s : State) (v : Byte) (c : Bool) : (s.addToA v c).halted = s.halted := rfl
@[simp] theorem State.addToA_mem (s : State) (v : Byte) (c : Bool) : (s.addToA v c).mem = s.mem := rfl
@[simp] theorem State.addToA_env (s : State) (v : Byte) (c : Bool) : (s.addToA v c).env = s.env := rfl
@[simp] theorem State.addToA_byteAt (s : State) (v : Byte) (c : Bool) (x : Word) : (s.addToA v c).byteAt x = s.byteAt x := rfl
@[simp] theorem State.addToA_kindAt (s : State) (v : Byte) (c : Bool) (x : Word) : (s.addToA v c).kindAt x = s.kindAt x := rfl
@[simp] theorem State.subFromA_regs (s : State) (v : Byte) (c : Bool) : (s.subFromA v c).regs = s.regs.set .a (sub8 (s.reg .a) v c).r := rfl
@[simp] theorem State.subFromA_flags (s : State) (v : Byte) (c : Bool) : (s.subFromA v c).flags = .ofAlu (sub8 (s.reg .a) v c) := rfl
@[simp] theorem State.subFromA_sp (s : State) (v : Byte) (c : Bool) : (s.subFromA v c).sp = s.sp := rfl
@[simp] theorem State.subFromA_pc (s : State) (v : Byte) (c : Bool) : (s.subFromA v c).pc = s.pc := rfl
@[simp] theorem State.subFromA_int (s : State) (v : Byte) (c : Bool) : (s.subFromA v c).int = s.int := rfl
@[simp] theorem State.subFromA_sod (s : State) (v : Byte) (c : Bool) : (s.subFromA v c).sod = s.sod := rfl
@[simp] theorem State.subFromA_halted (s : State) (v : Byte) (c : Bool) : (s.subFromA v c).halted = s.halted := rfl
@[simp] theorem State.subFromA_mem (s : State) (v : Byte) (c : Bool) : (s.subFromA v c).mem = s.mem := rfl
@[simp] theorem State.subFromA_env (s : State) (v : Byte) (c : Bool) : (s.subFromA v c).env = s.env := rfl
@[simp] theorem State.subFromA_byteAt (s : State) (v : Byte) (c : Bool) (x : Word) : (s.subFromA v c).byteAt x = s.byteAt x := rfl
@[simp] theorem State.subFromA_kindAt (s : State) (v : Byte) (c : Bool) (x : Word) : (s.subFromA v c).kindAt x = s.kindAt x := rfl
@[simp] theorem State.logicToA_regs (s : State) (v : Byte) (ac : Bool) : (s.logicToA v ac).regs = s.regs.set .a v := rfl
@[simp] theorem State.logicToA_flags (s : State) (v : Byte) (ac : Bool) : (s.logicToA v ac).flags = .ofLogic v ac := rfl
@[simp] theorem State.logicToA_sp (s : State) (v : Byte) (ac : Bool) : (s.logicToA v ac).sp = s.sp := rfl
@[simp] theorem State.logicToA_pc (s : State) (v : Byte) (ac : Bool) : (s.logicToA v ac).pc = s.pc := rfl
@[simp] theorem State.logicToA_int (s : State) (v : Byte) (ac : Bool) : (s.logicToA v ac).int = s.int := rfl
@[simp] theorem State.logicToA_sod (s : State) (v : Byte) (ac : Bool) : (s.logicToA v ac).sod = s.sod := rfl
@[simp] theorem State.logicToA_halted (s : State) (v : Byte) (ac : Bool) : (s.logicToA v ac).halted = s.halted := rfl
@[simp] theorem State.logicToA_mem (s : State) (v : Byte) (ac : Bool) : (s.logicToA v ac).mem = s.mem := rfl
@[simp] theorem State.logicToA_env (s : State) (v : Byte) (ac : Bool) : (s.logicToA v ac).env = s.env := rfl
@[simp] theorem State.logicToA_byteAt (s : State) (v : Byte) (ac : Bool) (x : Word) : (s.logicToA v ac).byteAt x = s.byteAt x := rfl
@[simp] theorem State.logicToA_kindAt (s : State) (v : Byte) (ac : Bool) (x : Word) : (s.logicToA v ac).kindAt x = s.kindAt x := rfl
@[simp] theorem State.andToA_regs (s : State) (v : Byte) : (s.andToA v).regs = s.regs.set .a (s.reg .a &&& v) := rfl
@[simp] theorem State.andToA_flags (s : State) (v : Byte) : (s.andToA v).flags = .ofLogic (s.reg .a &&& v) true := rfl
@[simp] theorem State.andToA_sp (s : State) (v : Byte) : (s.andToA v).sp = s.sp := rfl
@[simp] theorem State.andToA_pc (s : State) (v : Byte) : (s.andToA v).pc = s.pc := rfl
@[simp] theorem State.andToA_int (s : State) (v : Byte) : (s.andToA v).int = s.int := rfl
@[simp] theorem State.andToA_sod (s : State) (v : Byte) : (s.andToA v).sod = s.sod := rfl
@[simp] theorem State.andToA_halted (s : State) (v : Byte) : (s.andToA v).halted = s.halted := rfl
@[simp] theorem State.andToA_mem (s : State) (v : Byte) : (s.andToA v).mem = s.mem := rfl
@[simp] theorem State.andToA_env (s : State) (v : Byte) : (s.andToA v).env = s.env := rfl
@[simp] theorem State.andToA_byteAt (s : State) (v : Byte) (x : Word) : (s.andToA v).byteAt x = s.byteAt x := rfl
@[simp] theorem State.andToA_kindAt (s : State) (v : Byte) (x : Word) : (s.andToA v).kindAt x = s.kindAt x := rfl
@[simp] theorem State.xorToA_regs (s : State) (v : Byte) : (s.xorToA v).regs = s.regs.set .a (s.reg .a ^^^ v) := rfl
@[simp] theorem State.xorToA_flags (s : State) (v : Byte) : (s.xorToA v).flags = .ofLogic (s.reg .a ^^^ v) false := rfl
@[simp] theorem State.xorToA_sp (s : State) (v : Byte) : (s.xorToA v).sp = s.sp := rfl
@[simp] theorem State.xorToA_pc (s : State) (v : Byte) : (s.xorToA v).pc = s.pc := rfl
@[simp] theorem State.xorToA_int (s : State) (v : Byte) : (s.xorToA v).int = s.int := rfl
@[simp] theorem State.xorToA_sod (s : State) (v : Byte) : (s.xorToA v).sod = s.sod := rfl
@[simp] theorem State.xorToA_halted (s : State) (v : Byte) : (s.xorToA v).halted = s.halted := rfl
@[simp] theorem State.xorToA_mem (s : State) (v : Byte) : (s.xorToA v).mem = s.mem := rfl
@[simp] theorem State.xorToA_env (s : State) (v : Byte) : (s.xorToA v).env = s.env := rfl
@[simp] theorem State.xorToA_byteAt (s : State) (v : Byte) (x : Word) : (s.xorToA v).byteAt x = s.byteAt x := rfl
@[simp] theorem State.xorToA_kindAt (s : State) (v : Byte) (x : Word) : (s.xorToA v).kindAt x = s.kindAt x := rfl
@[simp] theorem State.orToA_regs (s : State) (v : Byte) : (s.orToA v).regs = s.regs.set .a (s.reg .a ||| v) := rfl
@[simp] theorem State.orToA_flags (s : State) (v : Byte) : (s.orToA v).flags = .ofLogic (s.reg .a ||| v) false := rfl
@[simp] theorem State.orToA_sp (s : State) (v : Byte) : (s.orToA v).sp = s.sp := rfl
@[simp] theorem State.orToA_pc (s : State) (v : Byte) : (s.orToA v).pc = s.pc := rfl
@[simp] theorem State.orToA_int (s : State) (v : Byte) : (s.orToA v).int = s.int := rfl
@[simp] theorem State.orToA_sod (s : State) (v : Byte) : (s.orToA v).sod = s.sod := rfl
@[simp] theorem State.orToA_halted (s : State) (v : Byte) : (s.orToA v).halted = s.halted := rfl
@[simp] theorem State.orToA_mem (s : State) (v : Byte) : (s.orToA v).mem = s.mem := rfl
@[simp] theorem State.orToA_env (s : State) (v : Byte) : (s.orToA v).env = s.env := rfl
@[simp] theorem State.orToA_byteAt (s : State) (v : Byte) (x : Word) : (s.orToA v).byteAt x = s.byteAt x := rfl
@[simp] theorem State.orToA_kindAt (s : State) (v : Byte) (x : Word) : (s.orToA v).kindAt x = s.kindAt x := rfl
@[simp] theorem State.compareA_regs (s : State) (v : Byte) : (s.compareA v).regs = s.regs := rfl
@[simp] theorem State.compareA_flags (s : State) (v : Byte) : (s.compareA v).flags = .ofAlu (sub8 (s.reg .a) v false) := rfl
@[simp] theorem State.compareA_sp (s : State) (v : Byte) : (s.compareA v).sp = s.sp := rfl
@[simp] theorem State.compareA_pc (s : State) (v : Byte) : (s.compareA v).pc = s.pc := rfl
@[simp] theorem State.compareA_int (s : State) (v : Byte) : (s.compareA v).int = s.int := rfl
@[simp] theorem State.compareA_sod (s : State) (v : Byte) : (s.compareA v).sod = s.sod := rfl
@[simp] theorem State.compareA_halted (s : State) (v : Byte) : (s.compareA v).halted = s.halted := rfl
@[simp] theorem State.compareA_mem (s : State) (v : Byte) : (s.compareA v).mem = s.mem := rfl
@[simp] theorem State.compareA_env (s : State) (v : Byte) : (s.compareA v).env = s.env := rfl
@[simp] theorem State.compareA_byteAt (s : State) (v : Byte) (x : Word) : (s.compareA v).byteAt x = s.byteAt x := rfl
@[simp] theorem State.compareA_kindAt (s : State) (v : Byte) (x : Word) : (s.compareA v).kindAt x = s.kindAt x := rfl
@[simp] theorem State.rotateA_regs (s : State) (v : Byte) (cy : Bool) : (s.rotateA v cy).regs = s.regs.set .a v := rfl
@[simp] theorem State.rotateA_flags (s : State) (v : Byte) (cy : Bool) : (s.rotateA v cy).flags = s.flags.setCy cy := rfl
@[simp] theorem State.rotateA_sp (s : State) (v : Byte) (cy : Bool) : (s.rotateA v cy).sp = s.sp := rfl
@[simp] theorem State.rotateA_pc (s : State) (v : Byte) (cy : Bool) : (s.rotateA v cy).pc = s.pc := rfl
@[simp] theorem State.rotateA_int (s : State) (v : Byte) (cy : Bool) : (s.rotateA v cy).int = s.int := rfl
@[simp] theorem State.rotateA_sod (s : State) (v : Byte) (cy : Bool) : (s.rotateA v cy).sod = s.sod := rfl
@[simp] theorem State.rotateA_halted (s : State) (v : Byte) (cy : Bool) : (s.rotateA v cy).halted = s.halted := rfl
@[simp] theorem State.rotateA_mem (s : State) (v : Byte) (cy : Bool) : (s.rotateA v cy).mem = s.mem := rfl
@[simp] theorem State.rotateA_env (s : State) (v : Byte) (cy : Bool) : (s.rotateA v cy).env = s.env := rfl
@[simp] theorem State.rotateA_byteAt (s : State) (v : Byte) (cy : Bool) (x : Word) : (s.rotateA v cy).byteAt x = s.byteAt x := rfl
@[simp] theorem State.rotateA_kindAt (s : State) (v : Byte) (cy : Bool) (x : Word) : (s.rotateA v cy).kindAt x = s.kindAt x := rfl

/-! ### Serial output -/

@[simp] theorem State.setSod_regs (s : State) (v : Bool) : (s.setSod v).regs = s.regs := rfl
@[simp] theorem State.setSod_flags (s : State) (v : Bool) : (s.setSod v).flags = s.flags := rfl
@[simp] theorem State.setSod_sp (s : State) (v : Bool) : (s.setSod v).sp = s.sp := rfl
@[simp] theorem State.setSod_pc (s : State) (v : Bool) : (s.setSod v).pc = s.pc := rfl
@[simp] theorem State.setSod_int (s : State) (v : Bool) : (s.setSod v).int = s.int := rfl
@[simp] theorem State.setSod_sod (s : State) (v : Bool) : (s.setSod v).sod = v := rfl
@[simp] theorem State.setSod_halted (s : State) (v : Bool) : (s.setSod v).halted = s.halted := rfl
@[simp] theorem State.setSod_mem (s : State) (v : Bool) : (s.setSod v).mem = s.mem := rfl
theorem State.setSod_env (s : State) (v : Bool) : (s.setSod v).env = if s.sod = v then s.env else s.env.tell (.sodChange v) := rfl
@[simp] theorem State.setSod_byteAt (s : State) (v : Bool) (x : Word) : (s.setSod v).byteAt x = s.byteAt x := rfl

/-! ### The platform -/

@[simp] theorem Env.draw_memMap (e : Env) : e.draw.2.memMap = e.memMap := rfl
@[simp] theorem Env.draw_inputs (e : Env) : e.draw.2.inputs = e.inputs := rfl
@[simp] theorem Env.draw_ackAnswers (e : Env) : e.draw.2.ackAnswers = e.ackAnswers := rfl
@[simp] theorem Env.draw_portAnswers (e : Env) : e.draw.2.portAnswers = e.portAnswers := rfl
@[simp] theorem Env.draw_deviceAnswers (e : Env) : e.draw.2.deviceAnswers = e.deviceAnswers := rfl
@[simp] theorem Env.draw_events (e : Env) : e.draw.2.events = e.events := rfl
@[simp] theorem Env.draw_draws (e : Env) : e.draw.2.draws = e.draws + 1 := rfl
@[simp] theorem Env.draw_kindAt (e : Env) (x : Word) : e.draw.2.kindAt x = e.kindAt x := rfl
@[simp] theorem Env.draw_input (e : Env) : e.draw.2.input = e.input := rfl
@[simp] theorem Env.tell_memMap (e : Env) (v : Event) : (e.tell v).memMap = e.memMap := rfl
@[simp] theorem Env.tell_inputs (e : Env) (v : Event) : (e.tell v).inputs = e.inputs := rfl
@[simp] theorem Env.tell_ackAnswers (e : Env) (v : Event) : (e.tell v).ackAnswers = e.ackAnswers := rfl
@[simp] theorem Env.tell_portAnswers (e : Env) (v : Event) : (e.tell v).portAnswers = e.portAnswers := rfl
@[simp] theorem Env.tell_deviceAnswers (e : Env) (v : Event) : (e.tell v).deviceAnswers = e.deviceAnswers := rfl
@[simp] theorem Env.tell_events (e : Env) (v : Event) : (e.tell v).events = v :: e.events := rfl
@[simp] theorem Env.tell_draws (e : Env) (v : Event) : (e.tell v).draws = e.draws := rfl
@[simp] theorem Env.tell_kindAt (e : Env) (v : Event) (x : Word) : (e.tell v).kindAt x = e.kindAt x := rfl
@[simp] theorem Env.tell_input (e : Env) (v : Event) : (e.tell v).input = e.input := rfl
@[simp] theorem Env.readDevice_memMap (e : Env) (a : Word) : (e.readDevice a).2.memMap = e.memMap := rfl
@[simp] theorem Env.readDevice_inputs (e : Env) (a : Word) : (e.readDevice a).2.inputs = e.inputs := rfl
@[simp] theorem Env.readDevice_ackAnswers (e : Env) (a : Word) : (e.readDevice a).2.ackAnswers = e.ackAnswers := rfl
@[simp] theorem Env.readDevice_portAnswers (e : Env) (a : Word) : (e.readDevice a).2.portAnswers = e.portAnswers := rfl
@[simp] theorem Env.readDevice_deviceAnswers (e : Env) (a : Word) : (e.readDevice a).2.deviceAnswers = e.deviceAnswers.tail := rfl
@[simp] theorem Env.readDevice_events (e : Env) (a : Word) : (e.readDevice a).2.events = .deviceRead a (e.readDevice a).1 :: e.events := rfl
@[simp] theorem Env.readDevice_draws (e : Env) (a : Word) : (e.readDevice a).2.draws = e.draws + 1 := rfl
@[simp] theorem Env.readDevice_kindAt (e : Env) (a : Word) (x : Word) : (e.readDevice a).2.kindAt x = e.kindAt x := rfl
@[simp] theorem Env.readDevice_input (e : Env) (a : Word) : (e.readDevice a).2.input = e.input := rfl
@[simp] theorem Env.readPort_memMap (e : Env) (p : Byte) : (e.readPort p).2.memMap = e.memMap := rfl
@[simp] theorem Env.readPort_inputs (e : Env) (p : Byte) : (e.readPort p).2.inputs = e.inputs := rfl
@[simp] theorem Env.readPort_ackAnswers (e : Env) (p : Byte) : (e.readPort p).2.ackAnswers = e.ackAnswers := rfl
@[simp] theorem Env.readPort_portAnswers (e : Env) (p : Byte) : (e.readPort p).2.portAnswers = e.portAnswers.tail := rfl
@[simp] theorem Env.readPort_deviceAnswers (e : Env) (p : Byte) : (e.readPort p).2.deviceAnswers = e.deviceAnswers := rfl
@[simp] theorem Env.readPort_events (e : Env) (p : Byte) : (e.readPort p).2.events = .portRead p (e.readPort p).1 :: e.events := rfl
@[simp] theorem Env.readPort_draws (e : Env) (p : Byte) : (e.readPort p).2.draws = e.draws + 1 := rfl
@[simp] theorem Env.readPort_kindAt (e : Env) (p : Byte) (x : Word) : (e.readPort p).2.kindAt x = e.kindAt x := rfl
@[simp] theorem Env.readPort_input (e : Env) (p : Byte) : (e.readPort p).2.input = e.input := rfl
@[simp] theorem Env.acknowledge_memMap (e : Env) : e.acknowledge.2.memMap = e.memMap := rfl
@[simp] theorem Env.acknowledge_inputs (e : Env) : e.acknowledge.2.inputs = e.inputs := rfl
@[simp] theorem Env.acknowledge_ackAnswers (e : Env) : e.acknowledge.2.ackAnswers = e.ackAnswers.tail := rfl
@[simp] theorem Env.acknowledge_portAnswers (e : Env) : e.acknowledge.2.portAnswers = e.portAnswers := rfl
@[simp] theorem Env.acknowledge_deviceAnswers (e : Env) : e.acknowledge.2.deviceAnswers = e.deviceAnswers := rfl
@[simp] theorem Env.acknowledge_events (e : Env) : e.acknowledge.2.events = .acknowledge e.acknowledge.1 :: e.events := rfl
@[simp] theorem Env.acknowledge_draws (e : Env) : e.acknowledge.2.draws = e.draws + 1 := rfl
@[simp] theorem Env.acknowledge_kindAt (e : Env) (x : Word) : e.acknowledge.2.kindAt x = e.kindAt x := rfl
@[simp] theorem Env.acknowledge_input (e : Env) : e.acknowledge.2.input = e.input := rfl
@[simp] theorem Env.nextInput_memMap (e : Env) : e.nextInput.memMap = e.memMap := rfl
@[simp] theorem Env.nextInput_inputs (e : Env) : e.nextInput.inputs = e.inputs.tail := rfl
@[simp] theorem Env.nextInput_ackAnswers (e : Env) : e.nextInput.ackAnswers = e.ackAnswers := rfl
@[simp] theorem Env.nextInput_portAnswers (e : Env) : e.nextInput.portAnswers = e.portAnswers := rfl
@[simp] theorem Env.nextInput_deviceAnswers (e : Env) : e.nextInput.deviceAnswers = e.deviceAnswers := rfl
@[simp] theorem Env.nextInput_events (e : Env) : e.nextInput.events = e.events := rfl
@[simp] theorem Env.nextInput_draws (e : Env) : e.nextInput.draws = e.draws := rfl
@[simp] theorem Env.nextInput_kindAt (e : Env) (x : Word) : e.nextInput.kindAt x = e.kindAt x := rfl
@[simp] theorem Env.read_memMap (e : Env) (a : Word) (c : Byte) : (e.read a c).2.memMap = e.memMap := by unfold Env.read; split <;> rfl
@[simp] theorem Env.read_inputs (e : Env) (a : Word) (c : Byte) : (e.read a c).2.inputs = e.inputs := by unfold Env.read; split <;> rfl
@[simp] theorem Env.read_ackAnswers (e : Env) (a : Word) (c : Byte) : (e.read a c).2.ackAnswers = e.ackAnswers := by unfold Env.read; split <;> rfl
@[simp] theorem Env.read_portAnswers (e : Env) (a : Word) (c : Byte) : (e.read a c).2.portAnswers = e.portAnswers := by unfold Env.read; split <;> rfl
@[simp] theorem Env.read_kindAt (e : Env) (a : Word) (c : Byte) (x : Word) : (e.read a c).2.kindAt x = e.kindAt x := by unfold Env.read; split <;> rfl
@[simp] theorem Env.read_input (e : Env) (a : Word) (c : Byte) : (e.read a c).2.input = e.input := by unfold Env.read; split <;> rfl
@[simp] theorem Env.write_memMap (e : Env) (a : Word) (v : Byte) : (e.write a v).memMap = e.memMap := by unfold Env.write; split <;> rfl
@[simp] theorem Env.write_inputs (e : Env) (a : Word) (v : Byte) : (e.write a v).inputs = e.inputs := by unfold Env.write; split <;> rfl
@[simp] theorem Env.write_ackAnswers (e : Env) (a : Word) (v : Byte) : (e.write a v).ackAnswers = e.ackAnswers := by unfold Env.write; split <;> rfl
@[simp] theorem Env.write_portAnswers (e : Env) (a : Word) (v : Byte) : (e.write a v).portAnswers = e.portAnswers := by unfold Env.write; split <;> rfl
@[simp] theorem Env.write_deviceAnswers (e : Env) (a : Word) (v : Byte) : (e.write a v).deviceAnswers = e.deviceAnswers := by unfold Env.write; split <;> rfl
@[simp] theorem Env.write_draws (e : Env) (a : Word) (v : Byte) : (e.write a v).draws = e.draws := by unfold Env.write; split <;> rfl
@[simp] theorem Env.write_kindAt (e : Env) (a : Word) (v : Byte) (x : Word) : (e.write a v).kindAt x = e.kindAt x := by unfold Env.write; split <;> rfl
@[simp] theorem Env.write_input (e : Env) (a : Word) (v : Byte) : (e.write a v).input = e.input := by unfold Env.write; split <;> rfl

/-! ### The memory map and the coming inputs under the accesses -/

@[simp] theorem State.memWrite16_memMap (s : State) (a w : Word) : (s.memWrite16 a w).env.memMap = s.env.memMap := by
  simp [State.memWrite16]
@[simp] theorem State.memWrite16_inputs (s : State) (a w : Word) : (s.memWrite16 a w).env.inputs = s.env.inputs := by
  simp [State.memWrite16]
@[simp] theorem State.pushBytes_memMap (s : State) (hi lo : Byte) :
    (s.pushBytes hi lo).env.memMap = s.env.memMap := by
  simp [State.pushBytes]
@[simp] theorem State.pushBytes_inputs (s : State) (hi lo : Byte) :
    (s.pushBytes hi lo).env.inputs = s.env.inputs := by
  simp [State.pushBytes]
@[simp] theorem State.pushWord_memMap (s : State) (w : Word) : (s.pushWord w).env.memMap = s.env.memMap := by
  simp [State.pushWord]
@[simp] theorem State.pushWord_inputs (s : State) (w : Word) : (s.pushWord w).env.inputs = s.env.inputs := by
  simp [State.pushWord]
@[simp] theorem State.enter_memMap (s : State) (a : Word) : (s.enter a).env.memMap = s.env.memMap := by
  simp [State.enter]
@[simp] theorem State.enter_inputs (s : State) (a : Word) : (s.enter a).env.inputs = s.env.inputs := by
  simp [State.enter]
@[simp] theorem State.callTo_memMap (s : State) (ret a : Word) : (s.callTo ret a).env.memMap = s.env.memMap := by
  simp [State.callTo]
@[simp] theorem State.callTo_inputs (s : State) (ret a : Word) : (s.callTo ret a).env.inputs = s.env.inputs := by
  simp [State.callTo]
@[simp] theorem State.callIf_memMap (s : State) (k : Cond) (a : Word) :
    (s.callIf k a).env.memMap = s.env.memMap := by
  unfold State.callIf; split <;> simp
@[simp] theorem State.callIf_inputs (s : State) (k : Cond) (a : Word) :
    (s.callIf k a).env.inputs = s.env.inputs := by
  unfold State.callIf; split <;> simp
@[simp] theorem State.returnIf_memMap (s : State) (k : Cond) : (s.returnIf k).env.memMap = s.env.memMap := by
  unfold State.returnIf; split <;> simp
@[simp] theorem State.returnIf_inputs (s : State) (k : Cond) : (s.returnIf k).env.inputs = s.env.inputs := by
  unfold State.returnIf; split <;> simp
@[simp] theorem State.setSod_memMap (s : State) (v : Bool) : (s.setSod v).env.memMap = s.env.memMap := by
  simp only [State.setSod_env]; split <;> simp
@[simp] theorem State.setSod_inputs (s : State) (v : Bool) : (s.setSod v).env.inputs = s.env.inputs := by
  simp only [State.setSod_env]; split <;> simp

@[simp] theorem State.memRead_kindAt (s : State) (a x : Word) : (s.memRead a).2.kindAt x = s.kindAt x := by
  simp [State.kindAt]
@[simp] theorem State.memWrite_kindAt (s : State) (a x : Word) (v : Byte) :
    (s.memWrite a v).kindAt x = s.kindAt x := by
  simp [State.kindAt]
@[simp] theorem State.memRead16_kindAt (s : State) (a x : Word) : (s.memRead16 a).2.kindAt x = s.kindAt x := by
  simp [State.kindAt]
@[simp] theorem State.memWrite16_kindAt (s : State) (a w x : Word) :
    (s.memWrite16 a w).kindAt x = s.kindAt x := by
  simp [State.memWrite16]
@[simp] theorem State.pushBytes_kindAt (s : State) (hi lo : Byte) (x : Word) :
    (s.pushBytes hi lo).kindAt x = s.kindAt x := by
  simp [State.pushBytes]
@[simp] theorem State.pushWord_kindAt (s : State) (w x : Word) : (s.pushWord w).kindAt x = s.kindAt x := by
  simp [State.pushWord]
@[simp] theorem State.popWord_kindAt (s : State) (x : Word) : s.popWord.2.kindAt x = s.kindAt x := by
  simp [State.kindAt]
@[simp] theorem State.readM_kindAt (s : State) (x : Word) : s.readM.2.kindAt x = s.kindAt x := by
  simp [State.kindAt]
@[simp] theorem State.writeM_kindAt (s : State) (v : Byte) (x : Word) : (s.writeM v).kindAt x = s.kindAt x := by
  simp [State.kindAt]

/-! ### Registers, pairs and their halves -/

@[simp] theorem Regs.get_set_same (x : Regs) (r : Reg) (v : Byte) : (x.set r v).get r = v := by cases r <;> rfl
theorem Regs.get_set_other (x : Regs) (r q : Reg) (v : Byte) (h : q ≠ r) : (x.set r v).get q = x.get q := by
  cases r <;> cases q <;> first | rfl | exact absurd rfl h
@[simp] theorem State.reg_advance (s : State) (n : Word) (r : Reg) : (s.advance n).reg r = s.reg r := rfl
@[simp] theorem State.reg_setPc (s : State) (a : Word) (r : Reg) : (s.setPc a).reg r = s.reg r := rfl
@[simp] theorem State.reg_setSp (s : State) (a : Word) (r : Reg) : (s.setSp a).reg r = s.reg r := rfl
@[simp] theorem State.reg_setFlags (s : State) (f : Flags) (r : Reg) : (s.setFlags f).reg r = s.reg r := rfl
@[simp] theorem State.reg_memWrite (s : State) (a : Word) (v : Byte) (r : Reg) :
    (s.memWrite a v).reg r = s.reg r := rfl
@[simp] theorem State.reg_memRead (s : State) (a : Word) (r : Reg) : (s.memRead a).2.reg r = s.reg r := rfl
@[simp] theorem State.reg_setReg_same (s : State) (r : Reg) (v : Byte) : (s.setReg r v).reg r = v := by
  simp [State.reg]
theorem State.reg_setReg_other (s : State) (r q : Reg) (v : Byte) (h : q ≠ r) :
    (s.setReg r v).reg q = s.reg q := by
  simpa [State.reg] using Regs.get_set_other s.regs r q v h
@[simp] theorem hiByte_wordOf (hi lo : Byte) : hiByte (wordOf hi lo) = hi := by
  apply BitVec.eq_of_getLsbD_eq
  intro i h
  have e : (wordOf hi lo).getLsbD (8 + i) = hi.getLsbD i := by
    unfold wordOf; erw [BitVec.getLsbD_append]; simp
  simp [hiByte, h, e]
@[simp] theorem loByte_wordOf (hi lo : Byte) : loByte (wordOf hi lo) = lo := by
  apply BitVec.eq_of_getLsbD_eq
  intro i h
  have e : (wordOf hi lo).getLsbD i = lo.getLsbD i := by
    unfold wordOf; erw [BitVec.getLsbD_append]; simp [h]
  simp [loByte, h, e]
@[simp] theorem wordOf_hiByte_loByte (w : Word) : wordOf (hiByte w) (loByte w) = w := by
  apply BitVec.eq_of_getLsbD_eq
  intro i h
  unfold wordOf; erw [BitVec.getLsbD_append]
  by_cases hi : i < 8
  · simp [hi, loByte]
  · simp [hi, hiByte, show i - 8 < 8 by omega, show 8 + (i - 8) = i by omega]
@[simp] theorem State.pair_setPair_same (s : State) (p : RegPair) (w : Word) : (s.setPair p w).pair p = w := by
  cases p <;> simp [State.setPair, State.pair]

end Sys2Proof.Machine
end

