-- ==== Sys2Proof/Laws/Flags.lean ====
section
/-! SUPPORT. What the flag computations answer, as numbers: one lemma for each result and each flag. -/

namespace Sys2Proof.Machine

theorem parityEven_iff (v : Byte) : parityEven v = true ↔ onesIn v % 2 = 0 := by
  revert v; decide

@[simp] theorem toNat_zextBit_nine (b : Bool) : (zextBit 9 b).toNat = b.toNat := by cases b <;> rfl
@[simp] theorem toNat_zextBit_five (b : Bool) : (zextBit 5 b).toNat = b.toNat := by cases b <;> rfl
@[simp] theorem toNat_nibble5 (v : Byte) : (nibble5 v).toNat = v.toNat % 16 := by
  simp only [nibble5, BitVec.toNat_setWidth, BitVec.extractLsb'_toNat]
  omega

/-- The addition of `add8`, as a number (R10). -/
theorem add8_r (a b : Byte) (c : Bool) : (add8 a b c).r.toNat = (a.toNat + b.toNat + c.toNat) % 256 := by
  have hc := Bool.toNat_le c
  simp only [add8, BitVec.extractLsb'_toNat, BitVec.toNat_add, BitVec.toNat_setWidth, toNat_zextBit_nine]
  omega

/-- CY of an addition: the carry out of bit 7 (R10). -/
theorem add8_cy (a b : Byte) (c : Bool) : (add8 a b c).cy = true ↔ 256 ≤ a.toNat + b.toNat + c.toNat := by
  have ha := a.isLt
  have hb := b.isLt
  have hc := Bool.toNat_le c
  simp only [add8, BitVec.getLsbD, Nat.testBit_eq_decide_div_mod_eq, decide_eq_true_eq, BitVec.toNat_add,
    BitVec.toNat_setWidth, toNat_zextBit_nine]
  omega

/-- AC of an addition: the carry out of bit 3 (R10). -/
theorem add8_ac (a b : Byte) (c : Bool) :
    (add8 a b c).ac = true ↔ 16 ≤ a.toNat % 16 + b.toNat % 16 + c.toNat := by
  have hc := Bool.toNat_le c
  simp only [add8, decide_eq_true_eq, BitVec.toNat_add, toNat_zextBit_five, toNat_nibble5]
  omega

theorem toNat_not_byte (b : Byte) : (~~~b).toNat = 255 - b.toNat := by
  simp [BitVec.toNat_not]

/-- The subtraction of `sub8`, as a number (R11). -/
theorem sub8_r (a b : Byte) (c : Bool) :
    (sub8 a b c).r.toNat = (a.toNat + 256 - (b.toNat + c.toNat)) % 256 := by
  have ha := a.isLt
  have hb := b.isLt
  simp only [sub8, BitVec.extractLsb'_toNat, BitVec.toNat_add, BitVec.toNat_setWidth, toNat_zextBit_nine,
    toNat_not_byte]
  cases c <;> simp <;> omega

/-- CY of a subtraction: the borrow into bit 7 (R11). -/
theorem sub8_cy (a b : Byte) (c : Bool) : (sub8 a b c).cy = true ↔ a.toNat < b.toNat + c.toNat := by
  have ha := a.isLt
  have hb := b.isLt
  simp only [sub8, BitVec.getLsbD, Nat.testBit_eq_decide_div_mod_eq, Bool.not_eq_true', decide_eq_false_iff_not,
    BitVec.toNat_add, BitVec.toNat_setWidth, toNat_zextBit_nine, toNat_not_byte]
  cases c <;> simp <;> omega

/-- AC of a subtraction: there is no borrow into bit 3 (R11). -/
theorem sub8_ac (a b : Byte) (c : Bool) :
    (sub8 a b c).ac = true ↔ b.toNat % 16 + c.toNat ≤ a.toNat % 16 := by
  have ha := a.isLt
  have hb := b.isLt
  simp only [sub8, decide_eq_true_eq, BitVec.toNat_add, toNat_zextBit_five, toNat_nibble5, toNat_not_byte]
  cases c <;> simp <;> omega

/-- The flags of an addition, subtraction or compare say of its result what `set_SZP` says (R9, R29). -/
theorem ofAlu_signZeroParity (x : AluResult) : SignZeroParity (.ofAlu x) x.r :=
  ⟨rfl, by simp [Flags.ofAlu], parityEven_iff x.r⟩

theorem ofLogic_flags (v : Byte) (ac : Bool) : FlagsOfLogic (.ofLogic v ac) v ac :=
  ⟨⟨rfl, by simp [Flags.ofLogic], parityEven_iff v⟩, rfl, rfl⟩

theorem ofIncDec_signZeroParity (f : Flags) (x : AluResult) : SignZeroParity (f.ofIncDec x) x.r :=
  ⟨rfl, by simp [Flags.ofIncDec, Flags.setSZP], parityEven_iff x.r⟩

@[simp] theorem ofIncDec_cy (f : Flags) (x : AluResult) : (f.ofIncDec x).cy = f.cy := rfl
@[simp] theorem ofIncDec_ac (f : Flags) (x : AluResult) : (f.ofIncDec x).ac = x.ac := rfl
@[simp] theorem setCy_cy (f : Flags) (b : Bool) : (f.setCy b).cy = b := rfl

/-- The flag byte gives back its flags, whatever the three free bits are (R30). -/
@[simp] theorem ofByte_toByte (f : Flags) (u : Byte) : Flags.ofByte (f.toByte u) = f := by
  obtain ⟨s, z, ac, p, cy⟩ := f
  simp only [Flags.toByte]
  generalize u.getLsbD 5 = x
  generalize u.getLsbD 3 = y
  generalize u.getLsbD 1 = w
  revert s z ac p cy x y w
  decide

end Sys2Proof.Machine
end

