-- ==== Sys2Proof/Laws/Memory.lean ====
section
/-! SUPPORT. The laws of memory: reading after writing, the canonical form, and what a byte write leaves in every cell
and tells the platform. -/

namespace Sys2Proof.Machine

/-! ### The list -/

@[simp] theorem Memory.lookup_nil (a : Nat) : Memory.lookup [] a = none := rfl

theorem Memory.lookup_store_same (m : Memory) (a : Nat) (v : Byte) : (m.store a v).lookup a = some v := by
  induction m with
  | nil => simp [Memory.store, Memory.lookup]
  | cons c m ih =>
    obtain ⟨k, w⟩ := c
    unfold Memory.store
    split
    · simp [Memory.lookup]
    · split
      · simp [Memory.lookup]
      · rename_i h1 h2
        simpa [Memory.lookup, Ne.symm h2] using ih

theorem Memory.lookup_store_other (m : Memory) (a b : Nat) (v : Byte) (h : b ≠ a) :
    (m.store a v).lookup b = m.lookup b := by
  induction m with
  | nil => simp [Memory.store, Memory.lookup, h.symm]
  | cons c m ih =>
    obtain ⟨k, w⟩ := c
    unfold Memory.store
    split
    · simp [Memory.lookup, h.symm]
    · split
      · rename_i h1 h2
        subst h2
        simp [Memory.lookup, h.symm]
      · simp [Memory.lookup, ih]

theorem Memory.wfFrom_store (m : Memory) (lo a : Nat) (v : Byte) (hm : m.wfFrom lo = true) (hlo : lo ≤ a)
    (ha : a < 65536) : (m.store a v).wfFrom lo = true := by
  induction m generalizing lo with
  | nil => simp [Memory.store, Memory.wfFrom, hlo, ha]
  | cons c m ih =>
    obtain ⟨k, w⟩ := c
    simp only [Memory.wfFrom, Bool.and_eq_true, decide_eq_true_eq] at hm
    obtain ⟨⟨h1, h2⟩, h3⟩ := hm
    unfold Memory.store
    split
    · simp only [Memory.wfFrom, Bool.and_eq_true, decide_eq_true_eq]
      exact ⟨⟨hlo, ha⟩, ⟨by omega, h2⟩, h3⟩
    · split
      · rename_i h4 h5
        subst h5
        simp only [Memory.wfFrom, Bool.and_eq_true, decide_eq_true_eq]
        exact ⟨⟨hlo, ha⟩, h3⟩
      · simp only [Memory.wfFrom, Bool.and_eq_true, decide_eq_true_eq]
        exact ⟨⟨h1, h2⟩, ih (k + 1) h3 (by omega)⟩

/-- A store keeps the canonical form. -/
theorem Memory.wf_store (m : Memory) (a : Word) (v : Byte) (hm : m.wf = true) : (m.store a.toNat v).wf = true :=
  Memory.wfFrom_store m 0 a.toNat v hm (Nat.zero_le _) a.isLt

theorem Memory.wf_load (m : Memory) (a : Word) (vs : List Byte) (hm : m.wf = true) : (m.load a vs).wf = true := by
  induction vs generalizing m a with
  | nil => exact hm
  | cons v vs ih => exact ih _ _ (Memory.wf_store m a v hm)

theorem Memory.lookup_of_lt (m : Memory) (lo a : Nat) (hm : m.wfFrom lo = true) (h : a < lo) : m.lookup a = none := by
  induction m generalizing lo with
  | nil => rfl
  | cons c m ih =>
    obtain ⟨k, w⟩ := c
    simp only [Memory.wfFrom, Bool.and_eq_true, decide_eq_true_eq] at hm
    obtain ⟨⟨h1, h2⟩, h3⟩ := hm
    simp only [Memory.lookup, if_neg (show ¬ k = a by omega)]
    exact ih (k + 1) h3 (by omega)

theorem Memory.eq_of_lookup_from (m n : Memory) (lo : Nat) (hm : m.wfFrom lo = true) (hn : n.wfFrom lo = true)
    (h : ∀ a, m.lookup a = n.lookup a) : m = n := by
  induction m generalizing n lo with
  | nil =>
    cases n with
    | nil => rfl
    | cons d n => have := h d.1; simp [Memory.lookup] at this
  | cons c m ih =>
    obtain ⟨k, w⟩ := c
    cases n with
    | nil => have := h k; simp [Memory.lookup] at this
    | cons d n =>
      obtain ⟨k', w'⟩ := d
      simp only [Memory.wfFrom, Bool.and_eq_true, decide_eq_true_eq] at hm hn
      have hk : k = k' := by
        rcases Nat.lt_trichotomy k k' with h1 | h1 | h1
        · have e := h k
          simp only [Memory.lookup, if_true, if_neg (show ¬ k' = k by omega)] at e
          rw [Memory.lookup_of_lt n (k' + 1) k hn.2 (by omega)] at e
          cases e
        · exact h1
        · have e := h k'
          simp only [Memory.lookup, if_true, if_neg (show ¬ k = k' by omega)] at e
          rw [Memory.lookup_of_lt m (k + 1) k' hm.2 (by omega)] at e
          cases e
      subst hk
      have hw : w = w' := by simpa [Memory.lookup] using h k
      subst hw
      congr 1
      refine ih n (k + 1) hm.2 hn.2 fun a => ?_
      by_cases e : k = a
      · subst e
        rw [Memory.lookup_of_lt m (k + 1) k hm.2 (by omega), Memory.lookup_of_lt n (k + 1) k hn.2 (by omega)]
      · simpa [Memory.lookup, e] using h a

/-- Two memories in canonical form that list the same bytes are the same data. -/
theorem Memory.eq_of_lookup (m n : Memory) (hm : m.wf = true) (hn : n.wf = true)
    (h : ∀ a, m.lookup a = n.lookup a) : m = n :=
  Memory.eq_of_lookup_from m n 0 hm hn h

/-! ### Cells and accesses -/

theorem State.byteAt_of_mem {s t : State} (h : t.mem = s.mem) (x : Word) : t.byteAt x = s.byteAt x := by
  simp [State.byteAt, h]

theorem State.kindAt_of_memMap {s t : State} (h : t.env.memMap = s.env.memMap) (x : Word) :
    t.kindAt x = s.kindAt x := by
  simp [State.kindAt, Env.kindAt, h]

/-- A byte write: RAM takes the byte, every other cell is left. -/
theorem State.byteAt_memWrite (s : State) (a : Word) (v : Byte) (x : Word) :
    (s.memWrite a v).byteAt x = if x = a ∧ s.kindAt a = .ram then v else s.byteAt x := by
  simp only [State.byteAt, State.memWrite_mem, State.memAfterWrite]
  by_cases hk : s.kindAt a = .ram
  · simp only [hk, and_true]
    by_cases hx : x = a
    · subst hx; simp [Memory.lookup_store_same]
    · have : x.toNat ≠ a.toNat := fun e => hx (BitVec.eq_of_toNat_eq e)
      simp [hx, Memory.lookup_store_other _ _ _ _ this]
  · cases h : s.kindAt a <;> simp_all

/-- A byte write keeps the canonical form. -/
theorem State.wf_memWrite (s : State) (a : Word) (v : Byte) (h : s.mem.wf = true) :
    (s.memWrite a v).mem.wf = true := by
  simp only [State.memWrite_mem, State.memAfterWrite]
  cases s.kindAt a <;> simp [h, Memory.wf_store]

theorem State.wf_memWrite16 (s : State) (a w : Word) (h : s.mem.wf = true) :
    (s.memWrite16 a w).mem.wf = true :=
  State.wf_memWrite _ _ _ (State.wf_memWrite _ _ _ h)

theorem State.wf_pushBytes (s : State) (hi lo : Byte) (h : s.mem.wf = true) :
    (s.pushBytes hi lo).mem.wf = true :=
  State.wf_memWrite _ _ _ (State.wf_memWrite _ _ _ h)

theorem State.wf_pushWord (s : State) (w : Word) (h : s.mem.wf = true) : (s.pushWord w).mem.wf = true :=
  State.wf_pushBytes s _ _ h

theorem State.wf_writeM (s : State) (v : Byte) (h : s.mem.wf = true) : (s.writeM v).mem.wf = true :=
  State.wf_memWrite _ _ _ h

/-- A byte read of RAM or ROM answers the cell and changes nothing. -/
theorem State.memRead_stored (s : State) (a : Word) (h : s.stored a = true) : s.memRead a = (s.byteAt a, s) := by
  have hk : s.env.kindAt a = s.kindAt a := rfl
  unfold State.stored at h
  unfold State.memRead Env.read
  cases e : s.kindAt a <;> simp_all

theorem State.memRead_unpopulated (s : State) (a : Word) (h : s.kindAt a = .unpopulated) :
    s.memRead a = (s.env.draw.1, { s with env := s.env.draw.2 }) := by
  have hk : s.env.kindAt a = s.kindAt a := rfl
  unfold State.memRead Env.read
  simp_all

theorem State.memRead_device (s : State) (a : Word) (h : s.kindAt a = .device) :
    s.memRead a = ((s.env.readDevice a).1, { s with env := (s.env.readDevice a).2 }) := by
  have hk : s.env.kindAt a = s.kindAt a := rfl
  unfold State.memRead Env.read
  simp_all

/-- A read of two bytes of RAM or ROM answers the cells, low byte first, and changes nothing. -/
theorem State.memRead16_stored (s : State) (a : Word) (h : s.stored a = true) (h' : s.stored (a + 1) = true) :
    s.memRead16 a = (wordOf (s.byteAt (a + 1)) (s.byteAt a), s) := by
  simp only [State.memRead16, State.memRead_stored s a h, State.memRead_stored s (a + 1) h']

theorem State.stored_of_ram {s : State} {a : Word} (h : s.kindAt a = .ram) : s.stored a = true := by
  simp [State.stored, h]

/-! ### The writes of an instruction, as `Wrote` says them -/

theorem Env.write_eq (e : Env) (a : Word) (v : Byte) :
    e.write a v = { e with events := (e.deviceWrites [(a, v)]).reverse ++ e.events } := by
  unfold Env.write Env.deviceWrites Env.tell
  cases h : e.kindAt a <;> simp [h]

theorem State.cellAfter_nil (s : State) (b : Word) : s.cellAfter [] b = s.byteAt b := rfl

theorem State.cellAfter_append (s : State) (ws : List (Word × Byte)) (a b : Word) (v : Byte) :
    s.cellAfter (ws ++ [(a, v)]) b = if b = a ∧ s.kindAt b = .ram then v else s.cellAfter ws b := by
  unfold State.cellAfter
  by_cases h : a = b
  · subst h
    by_cases hk : s.kindAt a = .ram
    · simp [hk]
    · simp only [List.reverse_append, List.reverse_cons, List.reverse_nil, List.nil_append, List.singleton_append,
        decide_true, List.find?_cons_of_pos, hk, and_false, if_false]
      split <;> rfl
  · simp [h, Ne.symm h]

/-- No write has been made yet. -/
theorem wrote_nil (s t : State) (h : t.mem = s.mem) : Wrote s t t.env [] :=
  ⟨fun b => State.byteAt_of_mem h b, by simp [Env.deviceWrites]⟩

/-- One more byte write. -/
theorem Wrote.memWrite {s t : State} {e : Env} {ws : List (Word × Byte)} (h : Wrote s t e ws)
    (hm : e.memMap = s.env.memMap) (a : Word) (v : Byte) : Wrote s (t.memWrite a v) e (ws ++ [(a, v)]) := by
  obtain ⟨h1, h2⟩ := h
  have hk : ∀ x, t.kindAt x = s.kindAt x := fun x => State.kindAt_of_memMap (by rw [h2, ← hm]) x
  have hk' : ∀ x, t.env.kindAt x = e.kindAt x := fun x => by rw [h2]; rfl
  refine ⟨fun b => ?_, ?_⟩
  · rw [State.byteAt_memWrite, State.cellAfter_append, h1, hk]
    by_cases hb : b = a <;> simp [hb]
  · rw [State.memWrite_env, Env.write_eq, h2]
    have hd : ({ e with events := (e.deviceWrites ws).reverse ++ e.events } : Env).deviceWrites [(a, v)]
        = e.deviceWrites [(a, v)] := rfl
    rw [hd]
    simp [Env.deviceWrites]

/-- The writes say nothing of what the state holds beside memory and platform. -/
theorem Wrote.congr {s t u : State} {e : Env} {ws : List (Word × Byte)} (h : Wrote s t e ws) (hm : u.mem = t.mem)
    (he : u.env = t.env) : Wrote s u e ws :=
  ⟨fun b => (State.byteAt_of_mem hm b).trans (h.1 b), he.trans h.2⟩

/-- A push of two bytes. -/
theorem wrote_pushBytes (s : State) (hi lo : Byte) : Wrote s (s.pushBytes hi lo) s.env (s.pushWrites hi lo) :=
  (((wrote_nil s s rfl).memWrite rfl (s.sp - 1) hi).memWrite rfl (s.sp - 2) lo).congr rfl rfl

/-- A write of two bytes, low byte first. -/
theorem wrote_memWrite16 (s : State) (a w : Word) :
    Wrote s (s.memWrite16 a w) s.env [(a, loByte w), (a + 1, hiByte w)] :=
  ((wrote_nil s s rfl).memWrite rfl a (loByte w)).memWrite rfl (a + 1) (hiByte w)

end Sys2Proof.Machine
end

