-- ==== Sys2Proof/Laws/PerInstr.lean ====
section
/-! SUPPORT. Laws that hold of every instruction, one lemma for each constructor. -/

namespace Sys2Proof.Laws.EncodedLength

/-- An instruction is encoded in as many bytes as its length says, and that length is a function of its opcode byte
alone (spec/30_encoding R70, R71). -/
def Statement (i : Instr) : Prop :=
  i.wellFormed = true → (encode i).length = i.length ∧ opcodeLength i.opcode = i.length

theorem movRR (dst : Reg) (src : Reg) : Statement (.movRR dst src) := fun _ => ⟨rfl, by cases dst <;> cases src <;> decide⟩
theorem movRM (dst : Reg) : Statement (.movRM dst) := fun _ => ⟨rfl, by cases dst <;> decide⟩
theorem movMR (src : Reg) : Statement (.movMR src) := fun _ => ⟨rfl, by cases src <;> decide⟩
theorem mviR (dst : Reg) (d8 : Byte) : Statement (.mviR dst d8) := fun _ => ⟨rfl, by cases dst <;> (simp only [Instr.opcode, Instr.length]; decide)⟩
theorem mviM (d8 : Byte) : Statement (.mviM d8) := fun _ => ⟨rfl, by simp only [Instr.opcode, Instr.length]; decide⟩
theorem xchg : Statement .xchg := fun _ => ⟨rfl, by decide⟩
theorem lda (a16 : Word) : Statement (.lda a16) := fun _ => ⟨rfl, by simp only [Instr.opcode, Instr.length]; decide⟩
theorem ldax (pair : RegPair) : Statement (.ldax pair) := by
  cases pair <;> first | exact fun _ => ⟨rfl, by decide⟩ | exact fun h => absurd h (by decide)
theorem lxi (pair : RegPair) (d16 : Word) : Statement (.lxi pair d16) := fun _ => ⟨rfl, by cases pair <;> (simp only [Instr.opcode, Instr.length]; decide)⟩
theorem sta (a16 : Word) : Statement (.sta a16) := fun _ => ⟨rfl, by simp only [Instr.opcode, Instr.length]; decide⟩
theorem stax (pair : RegPair) : Statement (.stax pair) := by
  cases pair <;> first | exact fun _ => ⟨rfl, by decide⟩ | exact fun h => absurd h (by decide)
theorem lhld (a16 : Word) : Statement (.lhld a16) := fun _ => ⟨rfl, by simp only [Instr.opcode, Instr.length]; decide⟩
theorem shld (a16 : Word) : Statement (.shld a16) := fun _ => ⟨rfl, by simp only [Instr.opcode, Instr.length]; decide⟩
theorem addR (src : Reg) : Statement (.addR src) := fun _ => ⟨rfl, by cases src <;> decide⟩
theorem addM : Statement .addM := fun _ => ⟨rfl, by decide⟩
theorem adcR (src : Reg) : Statement (.adcR src) := fun _ => ⟨rfl, by cases src <;> decide⟩
theorem adcM : Statement .adcM := fun _ => ⟨rfl, by decide⟩
theorem adi (d8 : Byte) : Statement (.adi d8) := fun _ => ⟨rfl, by simp only [Instr.opcode, Instr.length]; decide⟩
theorem aci (d8 : Byte) : Statement (.aci d8) := fun _ => ⟨rfl, by simp only [Instr.opcode, Instr.length]; decide⟩
theorem dad (pair : RegPair) : Statement (.dad pair) := fun _ => ⟨rfl, by cases pair <;> decide⟩
theorem daa : Statement .daa := fun _ => ⟨rfl, by decide⟩
theorem subR (src : Reg) : Statement (.subR src) := fun _ => ⟨rfl, by cases src <;> decide⟩
theorem subM : Statement .subM := fun _ => ⟨rfl, by decide⟩
theorem sbbR (src : Reg) : Statement (.sbbR src) := fun _ => ⟨rfl, by cases src <;> decide⟩
theorem sbbM : Statement .sbbM := fun _ => ⟨rfl, by decide⟩
theorem sui (d8 : Byte) : Statement (.sui d8) := fun _ => ⟨rfl, by simp only [Instr.opcode, Instr.length]; decide⟩
theorem sbi (d8 : Byte) : Statement (.sbi d8) := fun _ => ⟨rfl, by simp only [Instr.opcode, Instr.length]; decide⟩
theorem inrR (dst : Reg) : Statement (.inrR dst) := fun _ => ⟨rfl, by cases dst <;> decide⟩
theorem inrM : Statement .inrM := fun _ => ⟨rfl, by decide⟩
theorem inx (pair : RegPair) : Statement (.inx pair) := fun _ => ⟨rfl, by cases pair <;> decide⟩
theorem dcrR (dst : Reg) : Statement (.dcrR dst) := fun _ => ⟨rfl, by cases dst <;> decide⟩
theorem dcrM : Statement .dcrM := fun _ => ⟨rfl, by decide⟩
theorem dcx (pair : RegPair) : Statement (.dcx pair) := fun _ => ⟨rfl, by cases pair <;> decide⟩
theorem anaR (src : Reg) : Statement (.anaR src) := fun _ => ⟨rfl, by cases src <;> decide⟩
theorem anaM : Statement .anaM := fun _ => ⟨rfl, by decide⟩
theorem ani (d8 : Byte) : Statement (.ani d8) := fun _ => ⟨rfl, by simp only [Instr.opcode, Instr.length]; decide⟩
theorem xraR (src : Reg) : Statement (.xraR src) := fun _ => ⟨rfl, by cases src <;> decide⟩
theorem xraM : Statement .xraM := fun _ => ⟨rfl, by decide⟩
theorem xri (d8 : Byte) : Statement (.xri d8) := fun _ => ⟨rfl, by simp only [Instr.opcode, Instr.length]; decide⟩
theorem oraR (src : Reg) : Statement (.oraR src) := fun _ => ⟨rfl, by cases src <;> decide⟩
theorem oraM : Statement .oraM := fun _ => ⟨rfl, by decide⟩
theorem ori (d8 : Byte) : Statement (.ori d8) := fun _ => ⟨rfl, by simp only [Instr.opcode, Instr.length]; decide⟩
theorem cmpR (src : Reg) : Statement (.cmpR src) := fun _ => ⟨rfl, by cases src <;> decide⟩
theorem cmpM : Statement .cmpM := fun _ => ⟨rfl, by decide⟩
theorem cpi (d8 : Byte) : Statement (.cpi d8) := fun _ => ⟨rfl, by simp only [Instr.opcode, Instr.length]; decide⟩
theorem stc : Statement .stc := fun _ => ⟨rfl, by decide⟩
theorem cmc : Statement .cmc := fun _ => ⟨rfl, by decide⟩
theorem cma : Statement .cma := fun _ => ⟨rfl, by decide⟩
theorem rlc : Statement .rlc := fun _ => ⟨rfl, by decide⟩
theorem rrc : Statement .rrc := fun _ => ⟨rfl, by decide⟩
theorem ral : Statement .ral := fun _ => ⟨rfl, by decide⟩
theorem rar : Statement .rar := fun _ => ⟨rfl, by decide⟩
theorem jmp (a16 : Word) : Statement (.jmp a16) := fun _ => ⟨rfl, by simp only [Instr.opcode, Instr.length]; decide⟩
theorem jnz (a16 : Word) : Statement (.jnz a16) := fun _ => ⟨rfl, by simp only [Instr.opcode, Instr.length]; decide⟩
theorem jz (a16 : Word) : Statement (.jz a16) := fun _ => ⟨rfl, by simp only [Instr.opcode, Instr.length]; decide⟩
theorem jnc (a16 : Word) : Statement (.jnc a16) := fun _ => ⟨rfl, by simp only [Instr.opcode, Instr.length]; decide⟩
theorem jc (a16 : Word) : Statement (.jc a16) := fun _ => ⟨rfl, by simp only [Instr.opcode, Instr.length]; decide⟩
theorem jpo (a16 : Word) : Statement (.jpo a16) := fun _ => ⟨rfl, by simp only [Instr.opcode, Instr.length]; decide⟩
theorem jpe (a16 : Word) : Statement (.jpe a16) := fun _ => ⟨rfl, by simp only [Instr.opcode, Instr.length]; decide⟩
theorem jp (a16 : Word) : Statement (.jp a16) := fun _ => ⟨rfl, by simp only [Instr.opcode, Instr.length]; decide⟩
theorem jm (a16 : Word) : Statement (.jm a16) := fun _ => ⟨rfl, by simp only [Instr.opcode, Instr.length]; decide⟩
theorem call (a16 : Word) : Statement (.call a16) := fun _ => ⟨rfl, by simp only [Instr.opcode, Instr.length]; decide⟩
theorem cnz (a16 : Word) : Statement (.cnz a16) := fun _ => ⟨rfl, by simp only [Instr.opcode, Instr.length]; decide⟩
theorem cz (a16 : Word) : Statement (.cz a16) := fun _ => ⟨rfl, by simp only [Instr.opcode, Instr.length]; decide⟩
theorem cnc (a16 : Word) : Statement (.cnc a16) := fun _ => ⟨rfl, by simp only [Instr.opcode, Instr.length]; decide⟩
theorem cc (a16 : Word) : Statement (.cc a16) := fun _ => ⟨rfl, by simp only [Instr.opcode, Instr.length]; decide⟩
theorem cpo (a16 : Word) : Statement (.cpo a16) := fun _ => ⟨rfl, by simp only [Instr.opcode, Instr.length]; decide⟩
theorem cpe (a16 : Word) : Statement (.cpe a16) := fun _ => ⟨rfl, by simp only [Instr.opcode, Instr.length]; decide⟩
theorem cp (a16 : Word) : Statement (.cp a16) := fun _ => ⟨rfl, by simp only [Instr.opcode, Instr.length]; decide⟩
theorem cm (a16 : Word) : Statement (.cm a16) := fun _ => ⟨rfl, by simp only [Instr.opcode, Instr.length]; decide⟩
theorem ret : Statement .ret := fun _ => ⟨rfl, by decide⟩
theorem rnz : Statement .rnz := fun _ => ⟨rfl, by decide⟩
theorem rz : Statement .rz := fun _ => ⟨rfl, by decide⟩
theorem rnc : Statement .rnc := fun _ => ⟨rfl, by decide⟩
theorem rc : Statement .rc := fun _ => ⟨rfl, by decide⟩
theorem rpo : Statement .rpo := fun _ => ⟨rfl, by decide⟩
theorem rpe : Statement .rpe := fun _ => ⟨rfl, by decide⟩
theorem rp : Statement .rp := fun _ => ⟨rfl, by decide⟩
theorem rm : Statement .rm := fun _ => ⟨rfl, by decide⟩
theorem rst (n : BitVec 3) : Statement (.rst n) := fun _ => ⟨rfl, by revert n; decide⟩
theorem pchl : Statement .pchl := fun _ => ⟨rfl, by decide⟩
theorem nop : Statement .nop := fun _ => ⟨rfl, by decide⟩
theorem hlt : Statement .hlt := fun _ => ⟨rfl, by decide⟩
theorem ei : Statement .ei := fun _ => ⟨rfl, by decide⟩
theorem di : Statement .di := fun _ => ⟨rfl, by decide⟩
theorem sim : Statement .sim := fun _ => ⟨rfl, by decide⟩
theorem rim : Statement .rim := fun _ => ⟨rfl, by decide⟩
theorem inPort (p8 : Byte) : Statement (.inPort p8) := fun _ => ⟨rfl, by simp only [Instr.opcode, Instr.length]; decide⟩
theorem outPort (p8 : Byte) : Statement (.outPort p8) := fun _ => ⟨rfl, by simp only [Instr.opcode, Instr.length]; decide⟩
theorem push (pair : RegPair) : Statement (.push pair) := fun _ => ⟨rfl, by cases pair <;> decide⟩
theorem pushPsw : Statement .pushPsw := fun _ => ⟨rfl, by decide⟩
theorem pop (pair : RegPair) : Statement (.pop pair) := fun _ => ⟨rfl, by cases pair <;> decide⟩
theorem popPsw : Statement .popPsw := fun _ => ⟨rfl, by decide⟩
theorem xthl : Statement .xthl := fun _ => ⟨rfl, by decide⟩
theorem sphl : Statement .sphl := fun _ => ⟨rfl, by decide⟩
theorem undef08 : Statement .undef08 := fun _ => ⟨rfl, by decide⟩
theorem undef10 : Statement .undef10 := fun _ => ⟨rfl, by decide⟩
theorem undef18 : Statement .undef18 := fun _ => ⟨rfl, by decide⟩
theorem undef28 : Statement .undef28 := fun _ => ⟨rfl, by decide⟩
theorem undef38 : Statement .undef38 := fun _ => ⟨rfl, by decide⟩
theorem undefCB : Statement .undefCB := fun _ => ⟨rfl, by decide⟩
theorem undefD9 : Statement .undefD9 := fun _ => ⟨rfl, by decide⟩
theorem undefDD : Statement .undefDD := fun _ => ⟨rfl, by decide⟩
theorem undefED : Statement .undefED := fun _ => ⟨rfl, by decide⟩
theorem undefFD : Statement .undefFD := fun _ => ⟨rfl, by decide⟩

end Sys2Proof.Laws.EncodedLength
end

