-- ==== Sys2Proof/Laws/Step.lean ====
section
/-! SUPPORT. What fetching, sampling, taking an interrupt and a step can do: one lemma for each, which a proof cites
instead of unfolding it. -/

namespace Sys2Proof.Machine

/-! ### Fetching -/

/-- A fetch reads the opcode, and byte 2 and byte 3 where it needs them. -/
theorem State.fetch_cases (s : State) :
    s.fetch.2 = (s.memRead s.pc).2 ∨
    s.fetch.2 = ((s.memRead s.pc).2.memRead (s.pc + 1)).2 ∨
    s.fetch.2 = (((s.memRead s.pc).2.memRead (s.pc + 1)).2.memRead (s.pc + 2)).2 := by
  simp only [State.fetch]
  split
  · exact .inl rfl
  · exact .inr (.inl rfl)
  · split
    · exact .inr (.inl rfl)
    · exact .inr (.inr rfl)

/-- A fetch changes the platform alone. -/
theorem State.fetch_state (s : State) : s.fetch.2 = { s with env := s.fetch.2.env } := by
  rcases State.fetch_cases s with h | h | h <;> rw [h] <;> rfl

@[simp] theorem State.fetch_regs (s : State) : s.fetch.2.regs = s.regs := by rw [State.fetch_state]
@[simp] theorem State.fetch_flags (s : State) : s.fetch.2.flags = s.flags := by rw [State.fetch_state]
@[simp] theorem State.fetch_sp (s : State) : s.fetch.2.sp = s.sp := by rw [State.fetch_state]
@[simp] theorem State.fetch_pc (s : State) : s.fetch.2.pc = s.pc := by rw [State.fetch_state]
@[simp] theorem State.fetch_int (s : State) : s.fetch.2.int = s.int := by rw [State.fetch_state]
@[simp] theorem State.fetch_sod (s : State) : s.fetch.2.sod = s.sod := by rw [State.fetch_state]
@[simp] theorem State.fetch_halted (s : State) : s.fetch.2.halted = s.halted := by rw [State.fetch_state]
@[simp] theorem State.fetch_mem (s : State) : s.fetch.2.mem = s.mem := by rw [State.fetch_state]

/-- A fetch leaves the memory map. -/
@[simp] theorem State.fetch_memMap (s : State) : s.fetch.2.env.memMap = s.env.memMap := by
  rcases State.fetch_cases s with h | h | h <;> simp [h]

/-- A fetch leaves the coming inputs. -/
@[simp] theorem State.fetch_inputs (s : State) : s.fetch.2.env.inputs = s.env.inputs := by
  rcases State.fetch_cases s with h | h | h <;> simp [h]

/-! ### RESET, the sampling point, acceptance -/

/-- What the sampling point recognises in the state `s` leaves (R246). -/
def State.recognised (s : State) : Option Interrupt := (s.int.latch s.env.input.pins).recognise s.env.input.pins

theorem State.sampleInterrupts_none (s : State) (h : s.recognised = none) :
    s.sampleInterrupts = .next s.sampled := by
  unfold State.recognised at h
  simp [State.sampleInterrupts, h]; rfl

theorem State.sampleInterrupts_some (s : State) (x : Interrupt) (h : s.recognised = some x) :
    s.sampleInterrupts = s.sampled.takeInterrupt x := by
  unfold State.recognised at h
  simp [State.sampleInterrupts, h]; rfl

/-- A sampling point takes what it recognises, or nothing. -/
theorem State.sampleInterrupts_cases (s t : State) (h : s.sampleInterrupts = .next t) :
    (s.recognised = none ∧ t = s.sampled) ∨
    (∃ x, s.recognised = some x ∧ s.sampled.takeInterrupt x = .next t) := by
  cases hr : s.recognised with
  | none =>
    rw [State.sampleInterrupts_none s hr] at h
    injection h with h
    exact .inl ⟨rfl, h.symm⟩
  | some x =>
    rw [State.sampleInterrupts_some s x hr] at h
    exact .inr ⟨x, rfl, h⟩

/-- The fixed entry of an interrupt that has one (R241). -/
def Interrupt.entry : Interrupt → Option Word
  | .trap => some 0x0024
  | .rst75 => some 0x003C
  | .rst65 => some 0x0034
  | .rst55 => some 0x002C
  | .intr => none

/-- An acknowledge of INTR enters at an address, the platform having been asked one byte or three. -/
theorem State.acknowledgeIntr_cases (s t : State) (h : s.acknowledgeIntr = .next t) :
    ∃ (e : Env) (a : Word), t = ({ s with env := e } : State).enter a ∧ e.memMap = s.env.memMap ∧
      e.inputs = s.env.inputs := by
  unfold State.acknowledgeIntr at h
  dsimp only at h
  split at h
  · injection h with h
    exact ⟨s.env.acknowledge.2, _, h.symm, by simp, by simp⟩
  · split at h
    · injection h with h
      exact ⟨s.env.acknowledge.2.acknowledge.2.acknowledge.2, _, h.symm, by simp, by simp⟩
    · cases h

/-- Taking an interrupt enters at an address, the control state accepted and halted cleared. -/
theorem State.takeInterrupt_cases (s t : State) (x : Interrupt) (h : s.takeInterrupt x = .next t) :
    ∃ (e : Env) (a : Word),
      t = ({ s with int := s.int.accept x, halted := false, env := e } : State).enter a ∧
      e.memMap = s.env.memMap ∧ e.inputs = s.env.inputs ∧
      (∀ b, x.entry = some b → a = b ∧ e = s.env) := by
  cases x with
  | trap | rst75 | rst65 | rst55 =>
    simp only [State.takeInterrupt] at h
    injection h with h
    refine ⟨s.env, _, h.symm, rfl, rfl, fun b hb => ?_⟩
    simp only [Interrupt.entry] at hb
    injection hb with hb
    exact ⟨hb, rfl⟩
  | intr =>
    obtain ⟨e, a, h1, h2, h3⟩ := State.acknowledgeIntr_cases _ t h
    exact ⟨e, a, h1, h2, h3, fun b hb => by simp [Interrupt.entry] at hb⟩

/-! ### The step -/

/-- A step that has a next state is a RESET event, a sampling while halted, or an instruction and a sampling. -/
theorem step_cases (s t : State) (h : step s = .next t) :
    (s.env.input.resetIn = true ∧ t = s.resetEvent) ∨
    (s.env.input.resetIn = false ∧ s.halted = true ∧ s.sampleInterrupts = .next t) ∨
    (s.env.input.resetIn = false ∧ s.halted = false ∧
      ∃ u, exec s.fetch.1 s.fetch.2 = .next u ∧ u.sampleInterrupts = .next t) := by
  unfold step at h
  split at h
  · rename_i hr
    injection h with h
    exact .inl ⟨hr, h.symm⟩
  · rename_i hr
    split at h
    · rename_i hh
      exact .inr (.inl ⟨by simpa using hr, hh, h⟩)
    · rename_i hh
      split at h
      · rename_i u hu
        exact .inr (.inr ⟨by simpa using hr, by simpa using hh, u, hu, h⟩)
      · cases h
      · cases h

/-! ### Canonical form -/

theorem State.wf_enter (s : State) (a : Word) (h : s.mem.wf = true) : (s.enter a).mem.wf = true :=
  State.wf_pushWord s s.pc h

theorem State.wf_takeInterrupt (s t : State) (x : Interrupt) (h : s.mem.wf = true)
    (ht : s.takeInterrupt x = .next t) : t.mem.wf = true := by
  obtain ⟨e, a, rfl, -⟩ := State.takeInterrupt_cases s t x ht
  exact State.wf_enter _ a h

theorem State.wf_sampleInterrupts (s t : State) (h : s.mem.wf = true) (ht : s.sampleInterrupts = .next t) :
    t.mem.wf = true := by
  obtain ⟨-, rfl⟩ | ⟨x, -, hx⟩ := State.sampleInterrupts_cases s t ht
  · exact h
  · exact State.wf_takeInterrupt s.sampled t x h hx

theorem State.wf_resetEvent (s : State) (h : s.mem.wf = true) : s.resetEvent.mem.wf = true := h

theorem State.wf_callTo (s : State) (ret a : Word) (h : s.mem.wf = true) : (s.callTo ret a).mem.wf = true :=
  State.wf_pushWord s ret h

theorem State.wf_placeAtPc (s : State) (bytes : List Byte) (h : s.mem.wf = true) :
    (s.placeAtPc bytes).mem.wf = true :=
  Memory.wf_load s.mem s.pc bytes h

/-- The reset state's memory is in canonical form. -/
theorem reset_mem_wf : State.reset.mem.wf = true := rfl

end Sys2Proof.Machine
end

