-- ==== Sys2Proof/Machine/Timing.lean ====
section
/-! DEFINITION. The timing of spec/70_reset_and_hazards R278 to R280 (the corrected columns): for information only. No
rule depends on these numbers (D26) and no step reads them; they are a lower bound of real time (R280; log 21). -/

namespace Sys2Proof.Machine

/-- The kinds of machine cycle (R278, R279): opcode fetch, memory read, memory write, port read, port write,
interrupt acknowledge, bus idle. -/
inductive Cycle
  | of | mr | mw | ior | iow | ina | idle
  deriving DecidableEq, Repr

/-- The machine cycles of an instruction; `taken` matters to the conditional jumps, calls and returns alone (R278, R279).
The spec gives none for an undefined opcode. -/
def machineCycles (i : Instr) (taken : Bool) : List Cycle :=
  match i with
  | .movRR _ _ | .xchg | .addR _ | .adcR _ | .daa | .subR _ | .sbbR _ | .inrR _ | .inx _ | .dcrR _ | .dcx _
  | .anaR _ | .xraR _ | .oraR _ | .cmpR _ | .stc | .cmc | .cma | .rlc | .rrc | .ral | .rar | .pchl | .nop | .hlt
  | .ei | .di | .sim | .rim | .sphl => [.of]
  | .movRM _ | .mviR _ _ | .ldax _ | .addM | .adcM | .adi _ | .aci _ | .subM | .sbbM | .sui _ | .sbi _ | .anaM
  | .ani _ | .xraM | .xri _ | .oraM | .ori _ | .cmpM | .cpi _ => [.of, .mr]
  | .movMR _ | .stax _ => [.of, .mw]
  | .mviM _ | .inrM | .dcrM => [.of, .mr, .mw]
  | .lda _ => [.of, .mr, .mr, .mr]
  | .lxi _ _ | .jmp _ | .ret | .pop _ | .popPsw => [.of, .mr, .mr]
  | .sta _ => [.of, .mr, .mr, .mw]
  | .lhld _ => [.of, .mr, .mr, .mr, .mr]
  | .shld _ | .call _ | .xthl => [.of, .mr, .mr, .mw, .mw]
  | .dad _ => [.of, .idle, .idle]
  | .jnz _ | .jz _ | .jnc _ | .jc _ | .jpo _ | .jpe _ | .jp _ | .jm _ => if taken then [.of, .mr, .mr] else [.of, .mr]
  | .cnz _ | .cz _ | .cnc _ | .cc _ | .cpo _ | .cpe _ | .cp _ | .cm _ => if taken then [.of, .mr, .mr, .mw, .mw] else [.of, .mr]
  | .rnz | .rz | .rnc | .rc | .rpo | .rpe | .rp | .rm => if taken then [.of, .mr, .mr] else [.of]
  | .rst _ | .push _ | .pushPsw => [.of, .mw, .mw]
  | .inPort _ => [.of, .mr, .ior]
  | .outPort _ => [.of, .mr, .iow]
  | .undef08 | .undef10 | .undef18 | .undef28 | .undef38 | .undefCB | .undefD9 | .undefDD | .undefED | .undefFD => []

/-- The T-states of the opcode fetch (R278, R279): 4, or 6 for the instructions marked so, 5 for HLT. -/
def fetchStates (i : Instr) : Nat :=
  match i with
  | .inx _ | .dcx _ | .call _ | .cnz _ | .cz _ | .cnc _ | .cc _ | .cpo _ | .cpe _ | .cp _ | .cm _ | .rnz | .rz
  | .rnc | .rc | .rpo | .rpe | .rp | .rm | .rst _ | .pchl | .push _ | .pushPsw | .sphl => 6
  | .hlt => 5
  | .undef08 | .undef10 | .undef18 | .undef28 | .undef38 | .undefCB | .undefD9 | .undefDD | .undefED | .undefFD => 0
  | .movRR _ _ | .movRM _ | .movMR _ | .mviR _ _ | .mviM _ | .xchg | .lda _ | .ldax _ | .lxi _ _ | .sta _
  | .stax _ | .lhld _ | .shld _ | .addR _ | .addM | .adcR _ | .adcM | .adi _ | .aci _ | .dad _ | .daa | .subR _
  | .subM | .sbbR _ | .sbbM | .sui _ | .sbi _ | .inrR _ | .inrM | .dcrR _ | .dcrM | .anaR _ | .anaM | .ani _
  | .xraR _ | .xraM | .xri _ | .oraR _ | .oraM | .ori _ | .cmpR _ | .cmpM | .cpi _ | .stc | .cmc | .cma | .rlc
  | .rrc | .ral | .rar | .jmp _ | .jnz _ | .jz _ | .jnc _ | .jc _ | .jpo _ | .jpe _ | .jp _ | .jm _ | .ret
  | .nop | .ei | .di | .sim | .rim | .inPort _ | .outPort _ | .pop _ | .popPsw | .xthl => 4

/-- The T-states of an instruction: its fetch and three for every further machine cycle, which is the T-states column of
R278 and R279 in every row (DEDUCED). -/
def tStates (i : Instr) (taken : Bool) : Nat := fetchStates i + 3 * ((machineCycles i taken).length - 1)

/-- The machine cycles of an interrupt entry (R279); `byCall` tells how INTR was answered (R250). -/
def entryCycles (x : Interrupt) (byCall : Bool) : List Cycle :=
  match x with
  | .trap | .rst75 | .rst65 | .rst55 => [.idle, .mw, .mw]
  | .intr => if byCall then [.ina, .ina, .ina, .mw, .mw] else [.ina, .mw, .mw]

/-- The T-states of an interrupt entry: 6 for the first cycle, three for each further one (R279). -/
def entryTStates (x : Interrupt) (byCall : Bool) : Nat := 6 + 3 * ((entryCycles x byCall).length - 1)

end Sys2Proof.Machine
end

