-- ==== Sys2Proof/Tests/Slice0.lean ====
section
/-! SUPPORT. The model's own tests: well-formedness, decoding of words written out from spec/30_encoding, one step on
vectors of spec/95_test_vectors (the id stands in the name), interrupts, and for each statement with hypotheses a
concrete case that meets them. -/

namespace Sys2Proof.Tests

open Sys2Proof.Machine

/-! ### Helpers -/

/-- The five flags as a vector prints them: S Z AC P CY. -/
def flags5 (f : BitVec 5) : Flags :=
  { s := f.getLsbD 4, z := f.getLsbD 3, ac := f.getLsbD 2, p := f.getLsbD 1, cy := f.getLsbD 0 }

/-- A machine about to run `code` at `pc`; what is not listed is 0, as in the vectors. -/
def machine (pc sp : Word) (regs : List (Reg × Byte)) (flags : BitVec 5) (code : List Byte)
    (cells : List (Word × Byte)) : State :=
  let s : State := regs.foldl (fun s p => s.setReg p.1 p.2) .reset
  { s with
    pc := pc, sp := sp, flags := flags5 flags
    mem := Memory.load (cells.foldl (fun m p => m.store p.1.toNat p.2) []) pc code }

/-- A machine at 2000H with SP 4000H, registers and flags 0. -/
def small (code : List Byte) : State := machine 0x2000 0x4000 [] 0 code []

/-- The machine with this input at its next step. -/
def withInput (s : State) (x : StepInput) : State := { s with env := { s.env with inputs := [x] } }

/-- The machine with these pins at its next sampling point. -/
def withPins (s : State) (p : PinSample) : State := withInput s { StepInput.quiet with pins := p }

/-- The machine with this memory map. -/
def withMap (s : State) (m : List Region) : State := { s with env := { s.env with memMap := m } }

/-- The outcome is a next state with these values. -/
def gives (o : StepOutcome) (pc sp : Word) (regs : List (Reg × Byte)) (flags : BitVec 5)
    (cells : List (Word × Byte)) : Bool :=
  match o with
  | .next t =>
    t.pc == pc && t.sp == sp && regs.all (fun p => t.reg p.1 == p.2) && t.flags == flags5 flags &&
      cells.all (fun p => t.byteAt p.1 == p.2)
  | .fault _ => false
  | .refused _ => false

/-- The outcome is a next state of which `p` holds. -/
def after (o : StepOutcome) (p : State → Bool) : Bool :=
  match o with
  | .next t => p t
  | .fault _ => false
  | .refused _ => false

/-! ### WellFormed -/

theorem test_wellFormed_ldax : (Instr.ldax .hl).wellFormed = false ∧ (Instr.ldax .sp).wellFormed = false := by decide
theorem test_wellFormed_stax : (Instr.stax .hl).wellFormed = false ∧ (Instr.stax .sp).wellFormed = false := by decide
theorem test_wellFormed_push : (Instr.push .sp).wellFormed = false := by decide
theorem test_wellFormed_pop : (Instr.pop .sp).wellFormed = false := by decide

/-! ### Decode: opcode bytes written out from the encoding rows of spec/30_encoding R78 to R81 -/

theorem test_decode_transfer :
    decodeBytes [0b01000001] = .instr (.movRR .b .c) [] ∧
    decodeBytes [0b01001110] = .instr (.movRM .c) [] ∧
    decodeBytes [0b01110000] = .instr (.movMR .b) [] ∧
    decodeBytes [0b00111110, 0xFF] = .instr (.mviR .a 0xFF) [] ∧
    decodeBytes [0b00110110, 0x40] = .instr (.mviM 0x40) [] ∧
    decodeBytes [0b11101011] = .instr .xchg [] ∧
    decodeBytes [0b00111010, 0x00, 0x20] = .instr (.lda 0x2000) [] ∧
    decodeBytes [0b00011010] = .instr (.ldax .de) [] ∧
    decodeBytes [0b00100001, 0x50, 0x20] = .instr (.lxi .hl 0x2050) [] ∧
    decodeBytes [0b00110001, 0x34, 0x12] = .instr (.lxi .sp 0x1234) [] ∧
    decodeBytes [0b00110010, 0x00, 0x20] = .instr (.sta 0x2000) [] ∧
    decodeBytes [0b00000010] = .instr (.stax .bc) [] ∧
    decodeBytes [0b00101010, 0x50, 0x20] = .instr (.lhld 0x2050) [] ∧
    decodeBytes [0b00100010, 0x50, 0x20] = .instr (.shld 0x2050) [] := by decide

theorem test_decode_arithmetic :
    decodeBytes [0b10000001] = .instr (.addR .c) [] ∧
    decodeBytes [0b10000110] = .instr .addM [] ∧
    decodeBytes [0b10001001] = .instr (.adcR .c) [] ∧
    decodeBytes [0b10001110] = .instr .adcM [] ∧
    decodeBytes [0b11000110, 0x10] = .instr (.adi 0x10) [] ∧
    decodeBytes [0b11001110, 0x20] = .instr (.aci 0x20) [] ∧
    decodeBytes [0b00111001] = .instr (.dad .sp) [] ∧
    decodeBytes [0b00100111] = .instr .daa [] ∧
    decodeBytes [0b10010000] = .instr (.subR .b) [] ∧
    decodeBytes [0b10010110] = .instr .subM [] ∧
    decodeBytes [0b10011001] = .instr (.sbbR .c) [] ∧
    decodeBytes [0b10011110] = .instr .sbbM [] ∧
    decodeBytes [0b11010110, 0x45] = .instr (.sui 0x45) [] ∧
    decodeBytes [0b11011110, 0x20] = .instr (.sbi 0x20) [] ∧
    decodeBytes [0b00000100] = .instr (.inrR .b) [] ∧
    decodeBytes [0b00110100] = .instr .inrM [] ∧
    decodeBytes [0b00100011] = .instr (.inx .hl) [] ∧
    decodeBytes [0b00011101] = .instr (.dcrR .e) [] ∧
    decodeBytes [0b00110101] = .instr .dcrM [] ∧
    decodeBytes [0b00011011] = .instr (.dcx .de) [] := by decide

theorem test_decode_logical :
    decodeBytes [0b10100000] = .instr (.anaR .b) [] ∧
    decodeBytes [0b10100110] = .instr .anaM [] ∧
    decodeBytes [0b11100110, 0x3F] = .instr (.ani 0x3F) [] ∧
    decodeBytes [0b10101001] = .instr (.xraR .c) [] ∧
    decodeBytes [0b10101110] = .instr .xraM [] ∧
    decodeBytes [0b11101110, 0x39] = .instr (.xri 0x39) [] ∧
    decodeBytes [0b10110101] = .instr (.oraR .l) [] ∧
    decodeBytes [0b10110110] = .instr .oraM [] ∧
    decodeBytes [0b11110110, 0x08] = .instr (.ori 0x08) [] ∧
    decodeBytes [0b10111010] = .instr (.cmpR .d) [] ∧
    decodeBytes [0b10111110] = .instr .cmpM [] ∧
    decodeBytes [0b11111110, 0x30] = .instr (.cpi 0x30) [] ∧
    decodeBytes [0b00110111] = .instr .stc [] ∧
    decodeBytes [0b00111111] = .instr .cmc [] ∧
    decodeBytes [0b00101111] = .instr .cma [] ∧
    decodeBytes [0b00000111] = .instr .rlc [] ∧
    decodeBytes [0b00001111] = .instr .rrc [] ∧
    decodeBytes [0b00010111] = .instr .ral [] ∧
    decodeBytes [0b00011111] = .instr .rar [] := by decide

theorem test_decode_jump :
    decodeBytes [0b11000011, 0x00, 0x82] = .instr (.jmp 0x8200) [] ∧
    decodeBytes [0b11101001] = .instr .pchl [] ∧
    decodeBytes [0b11000010, 0x50, 0x20] = .instr (.jnz 0x2050) [] ∧
    decodeBytes [0b11001010, 0x50, 0x20] = .instr (.jz 0x2050) [] ∧
    decodeBytes [0b11010010, 0x50, 0x20] = .instr (.jnc 0x2050) [] ∧
    decodeBytes [0b11011010, 0x50, 0x20] = .instr (.jc 0x2050) [] ∧
    decodeBytes [0b11100010, 0x50, 0x20] = .instr (.jpo 0x2050) [] ∧
    decodeBytes [0b11101010, 0x50, 0x20] = .instr (.jpe 0x2050) [] ∧
    decodeBytes [0b11110010, 0x50, 0x20] = .instr (.jp 0x2050) [] ∧
    decodeBytes [0b11111010, 0x50, 0x20] = .instr (.jm 0x2050) [] := by decide

theorem test_decode_call :
    decodeBytes [0b11001101, 0x00, 0x20] = .instr (.call 0x2000) [] ∧
    decodeBytes [0b11110111] = .instr (.rst 6) [] ∧
    decodeBytes [0b11000100, 0x50, 0x20] = .instr (.cnz 0x2050) [] ∧
    decodeBytes [0b11001100, 0x50, 0x20] = .instr (.cz 0x2050) [] ∧
    decodeBytes [0b11010100, 0x50, 0x20] = .instr (.cnc 0x2050) [] ∧
    decodeBytes [0b11011100, 0x50, 0x20] = .instr (.cc 0x2050) [] ∧
    decodeBytes [0b11100100, 0x50, 0x20] = .instr (.cpo 0x2050) [] ∧
    decodeBytes [0b11101100, 0x50, 0x20] = .instr (.cpe 0x2050) [] ∧
    decodeBytes [0b11110100, 0x50, 0x20] = .instr (.cp 0x2050) [] ∧
    decodeBytes [0b11111100, 0x50, 0x20] = .instr (.cm 0x2050) [] := by decide

theorem test_decode_return :
    decodeBytes [0b11001001] = .instr .ret [] ∧
    decodeBytes [0b11000000] = .instr .rnz [] ∧
    decodeBytes [0b11001000] = .instr .rz [] ∧
    decodeBytes [0b11010000] = .instr .rnc [] ∧
    decodeBytes [0b11011000] = .instr .rc [] ∧
    decodeBytes [0b11100000] = .instr .rpo [] ∧
    decodeBytes [0b11101000] = .instr .rpe [] ∧
    decodeBytes [0b11110000] = .instr .rp [] ∧
    decodeBytes [0b11111000] = .instr .rm [] := by decide

theorem test_decode_control :
    decodeBytes [0b00000000] = .instr .nop [] ∧
    decodeBytes [0b01110110] = .instr .hlt [] ∧
    decodeBytes [0b11111011] = .instr .ei [] ∧
    decodeBytes [0b11110011] = .instr .di [] ∧
    decodeBytes [0b00110000] = .instr .sim [] ∧
    decodeBytes [0b00100000] = .instr .rim [] := by decide

theorem test_decode_ioStack :
    decodeBytes [0b11011011, 0x80] = .instr (.inPort 0x80) [] ∧
    decodeBytes [0b11010011, 0x50] = .instr (.outPort 0x50) [] ∧
    decodeBytes [0b11000101] = .instr (.push .bc) [] ∧
    decodeBytes [0b11110101] = .instr .pushPsw [] ∧
    decodeBytes [0b11100001] = .instr (.pop .hl) [] ∧
    decodeBytes [0b11110001] = .instr .popPsw [] ∧
    decodeBytes [0b11100011] = .instr .xthl [] ∧
    decodeBytes [0b11111001] = .instr .sphl [] := by decide

theorem test_decode_undefined :
    decodeBytes [0b00001000] = .instr .undef08 [] ∧
    decodeBytes [0b00010000] = .instr .undef10 [] ∧
    decodeBytes [0b00011000] = .instr .undef18 [] ∧
    decodeBytes [0b00101000] = .instr .undef28 [] ∧
    decodeBytes [0b00111000] = .instr .undef38 [] ∧
    decodeBytes [0b11001011] = .instr .undefCB [] ∧
    decodeBytes [0b11011001] = .instr .undefD9 [] ∧
    decodeBytes [0b11011101] = .instr .undefDD [] ∧
    decodeBytes [0b11101101] = .instr .undefED [] ∧
    decodeBytes [0b11111101] = .instr .undefFD [] := by decide

theorem test_decode_truncated : decodeBytes [0xC3, 0x00] = .truncated 0xC3 ∧ decodeBytes [] = .noBytes := by decide
theorem test_decodeTableWord : decodeTableWord 24 0x8200C3 = some (.jmp 0x8200) ∧
    decodeTableWord 8 0x06 = some (.mviR .b 0) := by decide
theorem test_withFetchWord_runs :
    gives (step (State.reset.withFetchWord 24 0x8200C3)) 0x8200 0 [] 0 [(0x0002, 0x82)] = true := by decide

/-! ### One step, on the vectors of spec/95_test_vectors -/

theorem test_movRR_T_MOV_1 : gives (step (machine 0x2000 0x0000 [(.b, 0x11), (.c, 0x7E)] 0b00000
    [0x41] [])) 0x2001 0x0000 [(.b, 0x7E), (.c, 0x7E)] 0b00000 [] = true := by decide
theorem test_movRM_T_MOV_4 : gives (step (machine 0x2000 0x0000 [(.h, 0x20), (.l, 0x50)] 0b00000
    [0x6E] [(0x2050, 0x99)])) 0x2001 0x0000 [(.h, 0x20), (.l, 0x99)] 0b00000 [] = true := by decide
theorem test_movMR_T_MOV_6 : gives (step (machine 0x2000 0x0000 [(.h, 0x30), (.l, 0x10)] 0b00000
    [0x74] [])) 0x2001 0x0000 [(.h, 0x30), (.l, 0x10)] 0b00000 [(0x3010, 0x30)] = true := by decide
theorem test_mviR_T_MOV_7 : gives (step (machine 0x2000 0x0000 [] 0b01000
    [0x3E, 0xFF] [])) 0x2002 0x0000 [(.a, 0xFF)] 0b01000 [] = true := by decide
theorem test_mviM_T_MOV_8 : gives (step (machine 0x2000 0x0000 [(.h, 0x20), (.l, 0x50)] 0b00000
    [0x36, 0x40] [])) 0x2002 0x0000 [(.h, 0x20), (.l, 0x50)] 0b00000 [(0x2050, 0x40)] = true := by decide
theorem test_xchg_T_MOV_9 : gives (step (machine 0x2000 0x0000 [(.d, 0xAB), (.e, 0xCD), (.h, 0x12), (.l, 0x34)] 0b00000
    [0xEB] [])) 0x2001 0x0000 [(.d, 0x12), (.e, 0x34), (.h, 0xAB), (.l, 0xCD)] 0b00000 [] = true := by decide
theorem test_lda_T_MOV_10 : gives (step (machine 0x2000 0x0000 [] 0b00000
    [0x3A, 0xFF, 0xFF] [(0xFFFF, 0x42)])) 0x2003 0x0000 [(.a, 0x42)] 0b00000 [] = true := by decide
theorem test_ldax_T_MOV_11 : gives (step (machine 0x2000 0x0000 [(.b, 0x30)] 0b00000
    [0x0A] [(0x3000, 0x77)])) 0x2001 0x0000 [(.a, 0x77), (.b, 0x30)] 0b00000 [] = true := by decide
theorem test_lxi_T_MOV_22 : gives (step (machine 0xFFFE 0x0000 [] 0b00000
    [0x21, 0x34, 0x12] [])) 0x0001 0x0000 [(.h, 0x12), (.l, 0x34)] 0b00000 [] = true := by decide
theorem test_sta_T_MOV_16 : gives (step (machine 0x2000 0x0000 [(.a, 0x5A)] 0b00000
    [0x32, 0x00, 0x00] [])) 0x2003 0x0000 [(.a, 0x5A)] 0b00000 [(0x0000, 0x5A)] = true := by decide
theorem test_stax_T_MOV_17 : gives (step (machine 0x2000 0x0000 [(.a, 0x99), (.d, 0x40), (.e, 0x01)] 0b00000
    [0x12] [])) 0x2001 0x0000 [(.a, 0x99), (.d, 0x40), (.e, 0x01)] 0b00000 [(0x4001, 0x99)] = true := by decide
theorem test_lhld_T_MOV_18 : gives (step (machine 0x2000 0x0000 [] 0b00000
    [0x2A, 0xFF, 0xFF] [(0xFFFF, 0x34), (0x0000, 0x12)]))
    0x2003 0x0000 [(.h, 0x12), (.l, 0x34)] 0b00000 [] = true := by decide
theorem test_shld_T_MOV_19 : gives (step (machine 0x2000 0x0000 [(.h, 0xAB), (.l, 0xCD)] 0b00000
    [0x22, 0xFF, 0xFF] []))
    0x2003 0x0000 [(.h, 0xAB), (.l, 0xCD)] 0b00000 [(0xFFFF, 0xCD), (0x0000, 0xAB)] = true := by decide
theorem test_addR_T_ADD_2 : gives (step (machine 0x2000 0x0000 [(.a, 0x7F), (.b, 0x01)] 0b00000
    [0x80] [])) 0x2001 0x0000 [(.a, 0x80), (.b, 0x01)] 0b10100 [] = true := by decide
theorem test_addM_T_ADD_5 : gives (step (machine 0x2000 0x0000 [(.a, 0xFF), (.h, 0x20), (.l, 0x50)] 0b00000
    [0x86] [(0x2050, 0xFF)])) 0x2001 0x0000 [(.a, 0xFE), (.h, 0x20), (.l, 0x50)] 0b10101 [] = true := by decide
theorem test_adcR_T_ADD_7 : gives (step (machine 0x2000 0x0000 [(.a, 0xFF), (.b, 0xFF)] 0b00001
    [0x88] [])) 0x2001 0x0000 [(.a, 0xFF), (.b, 0xFF)] 0b10111 [] = true := by decide
theorem test_adcM_T_ADD_10 : gives (step (machine 0x2000 0x0000 [(.a, 0x7F), (.h, 0x20), (.l, 0x50)] 0b00000
    [0x8E] [(0x2050, 0x80)])) 0x2001 0x0000 [(.a, 0xFF), (.h, 0x20), (.l, 0x50)] 0b10010 [] = true := by decide
theorem test_adi_T_ADD_12 : gives (step (machine 0x2000 0x0000 [(.a, 0x01)] 0b00000
    [0xC6, 0xFF] [])) 0x2002 0x0000 [(.a, 0x00)] 0b01111 [] = true := by decide
theorem test_aci_T_ADD_13 : gives (step (machine 0x2000 0x0000 [] 0b00001
    [0xCE, 0xFF] [])) 0x2002 0x0000 [] 0b01111 [] = true := by decide
theorem test_dad_T_INC_21 : gives (step (machine 0x2000 0x0000 [(.c, 0x01), (.h, 0xFF), (.l, 0xFF)] 0b00110
    [0x09] [])) 0x2001 0x0000 [(.c, 0x01), (.h, 0x00), (.l, 0x00)] 0b00111 [] = true := by decide
theorem test_daa_T_DAA_17 : gives (step (machine 0x2000 0x0000 [(.a, 0x8A)] 0b00000
    [0x27] [])) 0x2001 0x0000 [(.a, 0x90)] 0b10110 [] = true := by decide
theorem test_daa_T_DAA_4 : gives (step (machine 0x2000 0x0000 [(.a, 0x9A)] 0b00000
    [0x27] [])) 0x2001 0x0000 [(.a, 0x00)] 0b01111 [] = true := by decide
theorem test_subR_T_SUB_2 : gives (step (machine 0x2000 0x0000 [(.b, 0x01)] 0b00000
    [0x90] [])) 0x2001 0x0000 [(.a, 0xFF), (.b, 0x01)] 0b10011 [] = true := by decide
theorem test_subM_T_SUB_6 : gives (step (machine 0x2000 0x0000 [(.h, 0x20), (.l, 0x50)] 0b00000
    [0x96] [(0x2050, 0xFF)])) 0x2001 0x0000 [(.a, 0x01), (.h, 0x20), (.l, 0x50)] 0b00001 [] = true := by decide
theorem test_sbbR_T_SUB_8 : gives (step (machine 0x2000 0x0000 [(.a, 0x10), (.b, 0x0F)] 0b00001
    [0x98] [])) 0x2001 0x0000 [(.a, 0x00), (.b, 0x0F)] 0b01010 [] = true := by decide
theorem test_sbbM_T_SUB_11 : gives (step (machine 0x2000 0x0000 [(.a, 0x01), (.h, 0x20), (.l, 0x50)] 0b00001
    [0x9E] [(0x2050, 0x01)])) 0x2001 0x0000 [(.a, 0xFF), (.h, 0x20), (.l, 0x50)] 0b10011 [] = true := by decide
theorem test_sui_T_SUB_13 : gives (step (machine 0x2000 0x0000 [] 0b00000
    [0xD6, 0x01] [])) 0x2002 0x0000 [(.a, 0xFF)] 0b10011 [] = true := by decide
theorem test_sbi_T_SUB_15 : gives (step (machine 0x2000 0x0000 [(.a, 0x80)] 0b00001
    [0xDE, 0x00] [])) 0x2002 0x0000 [(.a, 0x7F)] 0b00000 [] = true := by decide
theorem test_inrR_T_INC_2 : gives (step (machine 0x2000 0x0000 [(.a, 0xFF)] 0b00001
    [0x3C] [])) 0x2001 0x0000 [(.a, 0x00)] 0b01111 [] = true := by decide
theorem test_inrM_T_INC_5 : gives (step (machine 0x2000 0x0000 [(.h, 0x20), (.l, 0x50)] 0b00001
    [0x34] [(0x2050, 0x0F)])) 0x2001 0x0000 [(.h, 0x20), (.l, 0x50)] 0b00101 [(0x2050, 0x10)] = true := by decide
theorem test_inx_T_INC_13 : gives (step (machine 0x2000 0x0000 [(.c, 0xFF)] 0b00000
    [0x03] [])) 0x2001 0x0000 [(.b, 0x01), (.c, 0x00)] 0b00000 [] = true := by decide
theorem test_dcrR_T_INC_9 : gives (step (machine 0x2000 0x0000 [(.b, 0x10)] 0b00000
    [0x05] [])) 0x2001 0x0000 [(.b, 0x0F)] 0b00010 [] = true := by decide
theorem test_dcrM_T_INC_11 : gives (step (machine 0x2000 0x0000 [(.h, 0x20), (.l, 0x50)] 0b00000
    [0x35] [(0x2050, 0x00)])) 0x2001 0x0000 [(.h, 0x20), (.l, 0x50)] 0b10010 [(0x2050, 0xFF)] = true := by decide
theorem test_dcx_T_INC_15 : gives (step (machine 0x2000 0x0000 [] 0b00000
    [0x0B] [])) 0x2001 0x0000 [(.b, 0xFF), (.c, 0xFF)] 0b00000 [] = true := by decide
theorem test_anaR_T_LOG_3 : gives (step (machine 0x2000 0x0000 [(.a, 0xFF), (.b, 0x55)] 0b00000
    [0xA0] [])) 0x2001 0x0000 [(.a, 0x55), (.b, 0x55)] 0b00110 [] = true := by decide
theorem test_anaM_T_LOG_4 : gives (step (machine 0x2000 0x0000 [(.a, 0x0F), (.h, 0x20), (.l, 0x50)] 0b00000
    [0xA6] [(0x2050, 0xF0)])) 0x2001 0x0000 [(.a, 0x00), (.h, 0x20), (.l, 0x50)] 0b01110 [] = true := by decide
theorem test_ani_T_LOG_5 : gives (step (machine 0x2000 0x0000 [(.a, 0x7F)] 0b00001
    [0xE6, 0xFF] [])) 0x2002 0x0000 [(.a, 0x7F)] 0b00100 [] = true := by decide
theorem test_xraR_T_LOG_7 : gives (step (machine 0x2000 0x0000 [(.a, 0x5A)] 0b10101
    [0xAF] [])) 0x2001 0x0000 [(.a, 0x00)] 0b01010 [] = true := by decide
theorem test_xraM_T_LOG_9 : gives (step (machine 0x2000 0x0000 [(.a, 0x55), (.h, 0x20), (.l, 0x50)] 0b00000
    [0xAE] [(0x2050, 0xAA)])) 0x2001 0x0000 [(.a, 0xFF), (.h, 0x20), (.l, 0x50)] 0b10010 [] = true := by decide
theorem test_xri_T_LOG_10 : gives (step (machine 0x2000 0x0000 [(.a, 0x55)] 0b00000
    [0xEE, 0xFF] [])) 0x2002 0x0000 [(.a, 0xAA)] 0b10010 [] = true := by decide
theorem test_oraR_T_LOG_14 : gives (step (machine 0x2000 0x0000 [(.a, 0x10), (.c, 0x01)] 0b00000
    [0xB1] [])) 0x2001 0x0000 [(.a, 0x11), (.c, 0x01)] 0b00010 [] = true := by decide
theorem test_oraM_T_LOG_15 : gives (step (machine 0x2000 0x0000 [(.h, 0x20), (.l, 0x50)] 0b00000
    [0xB6] [(0x2050, 0x00)])) 0x2001 0x0000 [(.h, 0x20), (.l, 0x50)] 0b01010 [] = true := by decide
theorem test_ori_T_LOG_17 : gives (step (machine 0x2000 0x0000 [(.a, 0x01)] 0b00000
    [0xF6, 0x80] [])) 0x2002 0x0000 [(.a, 0x81)] 0b10010 [] = true := by decide
theorem test_cmpR_T_CMP_4 : gives (step (machine 0x2000 0x0000 [(.a, 0x7F), (.b, 0x80)] 0b00000
    [0xB8] [])) 0x2001 0x0000 [(.a, 0x7F), (.b, 0x80)] 0b10111 [] = true := by decide
theorem test_cmpM_T_CMP_7 : gives (step (machine 0x2000 0x0000 [(.a, 0x10), (.h, 0x20), (.l, 0x50)] 0b00000
    [0xBE] [(0x2050, 0x01)]))
    0x2001 0x0000 [(.a, 0x10), (.h, 0x20), (.l, 0x50)] 0b00010 [(0x2050, 0x01)] = true := by decide
theorem test_cpi_T_CMP_11 : gives (step (machine 0x2000 0x0000 [(.a, 0x39)] 0b00000
    [0xFE, 0x3A] [])) 0x2002 0x0000 [(.a, 0x39)] 0b10011 [] = true := by decide
theorem test_stc_T_ROT_15 : gives (step (machine 0x2000 0x0000 [] 0b00000
    [0x37] [])) 0x2001 0x0000 [] 0b00001 [] = true := by decide
theorem test_cmc_T_ROT_16 : gives (step (machine 0x2000 0x0000 [] 0b11110
    [0x3F] [])) 0x2001 0x0000 [] 0b11111 [] = true := by decide
theorem test_cma_T_ROT_12 : gives (step (machine 0x2000 0x0000 [(.a, 0xFF)] 0b10000
    [0x2F] [])) 0x2001 0x0000 [(.a, 0x00)] 0b10000 [] = true := by decide
theorem test_rlc_T_ROT_1 : gives (step (machine 0x2000 0x0000 [(.a, 0x80)] 0b00000
    [0x07] [])) 0x2001 0x0000 [(.a, 0x01)] 0b00001 [] = true := by decide
theorem test_rrc_T_ROT_5 : gives (step (machine 0x2000 0x0000 [(.a, 0x80)] 0b00001
    [0x0F] [])) 0x2001 0x0000 [(.a, 0x40)] 0b00000 [] = true := by decide
theorem test_ral_T_ROT_7 : gives (step (machine 0x2000 0x0000 [] 0b00001
    [0x17] [])) 0x2001 0x0000 [(.a, 0x01)] 0b00000 [] = true := by decide
theorem test_rar_T_ROT_9 : gives (step (machine 0x2000 0x0000 [(.a, 0x01)] 0b00000
    [0x1F] [])) 0x2001 0x0000 [(.a, 0x00)] 0b00001 [] = true := by decide
theorem test_jmp_T_JMP_2 : gives (step (machine 0x2000 0x0000 [] 0b00000
    [0xC3, 0xFF, 0xFF] [])) 0xFFFF 0x0000 [] 0b00000 [] = true := by decide
theorem test_jnz_T_JMP_20 : gives (step (machine 0xFFFD 0x0000 [] 0b01000
    [0xC2, 0x00, 0x00] [])) 0x0000 0x0000 [] 0b01000 [] = true := by decide
theorem test_jz_T_JMP_5 : gives (step (machine 0x2000 0x0000 [] 0b01000
    [0xCA, 0x56, 0x34] [])) 0x3456 0x0000 [] 0b01000 [] = true := by decide
theorem test_jnc_T_JMP_7 : gives (step (machine 0x2000 0x0000 [] 0b00000
    [0xD2, 0x56, 0x34] [])) 0x3456 0x0000 [] 0b00000 [] = true := by decide
theorem test_jc_T_JMP_9 : gives (step (machine 0x2000 0x0000 [] 0b00001
    [0xDA, 0x56, 0x34] [])) 0x3456 0x0000 [] 0b00001 [] = true := by decide
theorem test_jpo_T_JMP_11 : gives (step (machine 0x2000 0x0000 [] 0b00000
    [0xE2, 0x56, 0x34] [])) 0x3456 0x0000 [] 0b00000 [] = true := by decide
theorem test_jpe_T_JMP_13 : gives (step (machine 0x2000 0x0000 [] 0b00010
    [0xEA, 0x56, 0x34] [])) 0x3456 0x0000 [] 0b00010 [] = true := by decide
theorem test_jp_T_JMP_15 : gives (step (machine 0x2000 0x0000 [] 0b00000
    [0xF2, 0x56, 0x34] [])) 0x3456 0x0000 [] 0b00000 [] = true := by decide
theorem test_jm_T_JMP_18 : gives (step (machine 0x2000 0x0000 [] 0b00000
    [0xFA, 0x56, 0x34] [])) 0x2003 0x0000 [] 0b00000 [] = true := by decide
theorem test_call_T_CALL_3 : gives (step (machine 0x3000 0x0001 [] 0b00000
    [0xCD, 0x34, 0x12] [])) 0x1234 0xFFFF [] 0b00000 [(0x0000, 0x30), (0xFFFF, 0x03)] = true := by decide
theorem test_cnz_T_CALL_5 : gives (step (machine 0x3000 0x4000 [] 0b00000
    [0xC4, 0x00, 0x20] [])) 0x2000 0x3FFE [] 0b00000 [(0x3FFF, 0x30), (0x3FFE, 0x03)] = true := by decide
theorem test_cz_T_CALL_8 : gives (step (machine 0x3000 0x4000 [] 0b00000
    [0xCC, 0x00, 0x20] [])) 0x3003 0x4000 [] 0b00000 [] = true := by decide
theorem test_cnc_T_CALL_9 : gives (step (machine 0x3000 0x4000 [] 0b00000
    [0xD4, 0x00, 0x20] [])) 0x2000 0x3FFE [] 0b00000 [(0x3FFF, 0x30), (0x3FFE, 0x03)] = true := by decide
theorem test_cc_T_CALL_11 : gives (step (machine 0x3000 0x4000 [] 0b00001
    [0xDC, 0x00, 0x20] [])) 0x2000 0x3FFE [] 0b00001 [(0x3FFF, 0x30), (0x3FFE, 0x03)] = true := by decide
theorem test_cpo_T_CALL_13 : gives (step (machine 0x3000 0x4000 [] 0b00000
    [0xE4, 0x00, 0x20] [])) 0x2000 0x3FFE [] 0b00000 [(0x3FFF, 0x30), (0x3FFE, 0x03)] = true := by decide
theorem test_cpe_T_CALL_15 : gives (step (machine 0x3000 0x4000 [] 0b00010
    [0xEC, 0x00, 0x20] [])) 0x2000 0x3FFE [] 0b00010 [(0x3FFF, 0x30), (0x3FFE, 0x03)] = true := by decide
theorem test_cp_T_CALL_17 : gives (step (machine 0x3000 0x4000 [] 0b00000
    [0xF4, 0x00, 0x20] [])) 0x2000 0x3FFE [] 0b00000 [(0x3FFF, 0x30), (0x3FFE, 0x03)] = true := by decide
theorem test_cm_T_CALL_19 : gives (step (machine 0x3000 0x4000 [] 0b10000
    [0xFC, 0x00, 0x20] [])) 0x2000 0x3FFE [] 0b10000 [(0x3FFF, 0x30), (0x3FFE, 0x03)] = true := by decide
theorem test_ret_T_CALL_22 : gives (step (machine 0x2010 0xFFFF [] 0b00000
    [0xC9] [(0xFFFF, 0x78), (0x0000, 0x56)])) 0x5678 0x0001 [] 0b00000 [] = true := by decide
theorem test_rnz_T_CALL_23 : gives (step (machine 0x2010 0x3FFE [] 0b00000
    [0xC0] [(0x3FFE, 0x03), (0x3FFF, 0x30)])) 0x3003 0x4000 [] 0b00000 [] = true := by decide
theorem test_rz_T_CALL_26 : gives (step (machine 0x2010 0x3FFE [] 0b00000
    [0xC8] [(0x3FFE, 0x03), (0x3FFF, 0x30)])) 0x2011 0x3FFE [] 0b00000 [] = true := by decide
theorem test_rnc_T_CALL_27 : gives (step (machine 0x2010 0x3FFE [] 0b00000
    [0xD0] [(0x3FFE, 0x03), (0x3FFF, 0x30)])) 0x3003 0x4000 [] 0b00000 [] = true := by decide
theorem test_rc_T_CALL_29 : gives (step (machine 0x2010 0x3FFE [] 0b00001
    [0xD8] [(0x3FFE, 0x03), (0x3FFF, 0x30)])) 0x3003 0x4000 [] 0b00001 [] = true := by decide
theorem test_rpo_T_CALL_31 : gives (step (machine 0x2010 0x3FFE [] 0b00000
    [0xE0] [(0x3FFE, 0x03), (0x3FFF, 0x30)])) 0x3003 0x4000 [] 0b00000 [] = true := by decide
theorem test_rpe_T_CALL_33 : gives (step (machine 0x2010 0x3FFE [] 0b00010
    [0xE8] [(0x3FFE, 0x03), (0x3FFF, 0x30)])) 0x3003 0x4000 [] 0b00010 [] = true := by decide
theorem test_rp_T_CALL_35 : gives (step (machine 0x2010 0x3FFE [] 0b00000
    [0xF0] [(0x3FFE, 0x03), (0x3FFF, 0x30)])) 0x3003 0x4000 [] 0b00000 [] = true := by decide
theorem test_rm_T_CALL_37 : gives (step (machine 0x2010 0x3FFE [] 0b10000
    [0xF8] [(0x3FFE, 0x03), (0x3FFF, 0x30)])) 0x3003 0x4000 [] 0b10000 [] = true := by decide
theorem test_rst_T_CALL_47 : gives (step (machine 0xFFFF 0x4000 [] 0b00000
    [0xCF] [])) 0x0008 0x3FFE [] 0b00000 [(0x3FFF, 0x00), (0x3FFE, 0x00)] = true := by decide
theorem test_pchl_T_JMP_22 : gives (step (machine 0x2000 0x4000 [(.h, 0xFF), (.l, 0xFF)] 0b00000
    [0xE9] [])) 0xFFFF 0x4000 [(.h, 0xFF), (.l, 0xFF)] 0b00000 [] = true := by decide
theorem test_nop_T_MOV_21 : gives (step (machine 0xFFFF 0x0000 [] 0b00000
    [0x00] [])) 0x0000 0x0000 [] 0b00000 [] = true := by decide
theorem test_push_T_STK_6 : gives (step (machine 0x2000 0x0001 [(.d, 0x56), (.e, 0x78)] 0b00000
    [0xD5] [])) 0x2001 0xFFFF [(.d, 0x56), (.e, 0x78)] 0b00000 [(0x0000, 0x56), (0xFFFF, 0x78)] = true := by decide
theorem test_pop_T_STK_12 : gives (step (machine 0x2000 0xFFFF [] 0b00000
    [0xD1] [(0xFFFF, 0xCD), (0x0000, 0xAB)])) 0x2001 0x0001 [(.d, 0xAB), (.e, 0xCD)] 0b00000 [] = true := by decide
theorem test_popPsw_T_STK_15 : gives (step (machine 0x2000 0x3FFE [] 0b11111
    [0xF1] [(0x3FFE, 0x2A), (0x3FFF, 0x55)])) 0x2001 0x4000 [(.a, 0x55)] 0b00000 [] = true := by decide
theorem test_xthl_T_STK_19 : gives (step (machine 0x2000 0xFFFF [(.h, 0x11), (.l, 0x22)] 0b00000
    [0xE3] [(0xFFFF, 0x33), (0x0000, 0x44)]))
    0x2001 0xFFFF [(.h, 0x44), (.l, 0x33)] 0b00000 [(0x0000, 0x11), (0xFFFF, 0x22)] = true := by decide
theorem test_sphl_T_STK_20 : gives (step (machine 0x2000 0x1234 [(.h, 0x50), (.l, 0x6C)] 0b00000
    [0xF9] [])) 0x2001 0x506C [(.h, 0x50), (.l, 0x6C)] 0b00000 [] = true := by decide

theorem test_hlt_T_CTL_2 : after (step (small [0x76])) (fun t => t.halted && t.pc == 0x2001) = true := by decide
theorem test_ei_T_INT_1 :
    after (step (withPins { small [0xFB] with int := { IntCtl.reset with m65 := false } }
        { PinSample.quiet with r65Level := true }))
      (fun t => t.pc == 0x2001 && t.sp == 0x4000 && t.int.inte && !t.int.eiDelay) = true := by decide
theorem test_di_T_CTL_5 :
    after (step { small [0xF3] with int := { IntCtl.reset with inte := true } }) (fun t => !t.int.inte) = true := by
  decide
theorem test_sim_T_CTL_11 :
    after (step ({ small [0x30] with int := { IntCtl.reset with m65 := false, r75 := true } }.setReg .a 0x18))
      (fun t => t.int == { IntCtl.reset with m55 := false, m65 := false, m75 := false } && !t.sod) = true := by
  decide
theorem test_sim_T_CTL_13 :
    after (step ({ small [0x30] with int := { IntCtl.reset with m65 := false, r75 := true } }.setReg .a 0xC0))
      (fun t => t.int == { IntCtl.reset with m65 := false, r75 := true } && t.sod &&
        t.env.events == [.sodChange true]) = true := by decide
theorem test_rim_T_RIM_2 :
    after (exec .rim (withInput { small [] with int := { IntCtl.reset with inte := true, m75 := false } }
        { StepInput.quiet with sid := some true, rst65Pin := true }))
      (fun t => t.reg .a == 0xAB) = true := by decide
theorem test_rim_T_RIM_6 :
    after (exec .rim (withInput { small [] with int := { IntCtl.reset with trapIe := some true } }
        { StepInput.quiet with sid := some false }))
      (fun t => t.reg .a == 0x0F && t.int.trapIe == none) = true := by decide
theorem test_inPort_T_STK_1 :
    after (step { small [0xDB, 0x80] with env := { Env.initial with portAnswers := [0x80] } })
      (fun t => t.reg .a == 0x80 && t.flags == flags5 0 && t.env.events == [.portRead 0x80 0x80]) = true := by decide
theorem test_outPort_T_STK_3 :
    after (step ((small [0xD3, 0x50]).setReg .a 0x7E)) (fun t => t.env.events == [.portWrite 0x50 0x7E]) = true := by
  decide
theorem test_pushPsw_T_STK_8 :
    after (step ({ small [0xF5] with flags := flags5 0b01011 }.setReg .a 0x1F))
      (fun t => t.byteAt 0x3FFF == 0x1F && t.sp == 0x3FFE) = true := by decide
theorem test_undefined_P6 : step (machine 0x2002 0 [(.a, 0x01)] 0 [0x08] []) =
    .refused (.undefinedOpcode 0x2002 0x08) := rfl

/-! ### Interrupts and RESET, on the scenarios of spec/95_test_vectors T-INT -/

theorem test_rst75_first_T_INT_4 :
    after (step (withPins { small [0x00] with int :=
          { IntCtl.reset with inte := true, m75 := false, m65 := false, m55 := false } }
        { PinSample.quiet with r75Edge := true, r65Level := true, r55Level := true }))
      (fun t => t.pc == 0x003C && t.sp == 0x3FFE && !t.int.inte && !t.int.r75 && t.byteAt 0x3FFF == 0x20 &&
        t.byteAt 0x3FFE == 0x01) = true := by decide
theorem test_masked_is_passed_over_T_INT_5 :
    after (step (withPins { small [0x00] with int := { IntCtl.reset with inte := true, m55 := false, r75 := true } }
        { PinSample.quiet with r65Level := true, r55Level := true }))
      (fun t => t.pc == 0x002C && t.int.r75) = true := by decide
theorem test_trap_in_the_ei_delay_T_INT_6 :
    after (step (withPins (small [0xFB]) { PinSample.quiet with trapEdge := true, trapLevel := true }))
      (fun t => t.pc == 0x0024 && t.int.trapIe == some true && !t.int.inte && t.byteAt 0x3FFE == 0x01) = true := by
  decide
theorem test_halt_ends_T_INT_7 :
    after (step (withPins { small [] with halted := true, int := { IntCtl.reset with inte := true, m75 := false } }
        { PinSample.quiet with r75Edge := true }))
      (fun t => t.pc == 0x003C && !t.halted && t.byteAt 0x3FFF == 0x20 && t.byteAt 0x3FFE == 0x00) = true := by decide
/-- The machine about to run a NOP with INTE set, INTR high at its sampling point and this acknowledge answer. -/
def interrupted (answers : List Byte) : State :=
  let s : State := withPins { small [0x00] with int := { IntCtl.reset with inte := true } }
    { PinSample.quiet with intrLevel := true }
  { s with env := { s.env with ackAnswers := answers } }
theorem test_intr_rst_T_INT_9 :
    after (step (interrupted [0xEF])) (fun t => t.pc == 0x0028 && t.byteAt 0x3FFE == 0x01) = true := by decide
theorem test_intr_call_T_INT_10 :
    after (step (interrupted [0xCD, 0x34, 0x12])) (fun t => t.pc == 0x1234 && t.byteAt 0x3FFE == 0x01) = true := by
  decide
theorem test_reset_event :
    after (step (withInput { small [0x00] with halted := true, int := { IntCtl.reset with inte := true } }
        { StepInput.quiet with resetIn := true }))
      (fun t => t.pc == 0x0000 && t.int == .reset && !t.halted && t.byteAt 0x2000 == 0x00) = true := by decide
theorem test_store_wraps_at_the_top :
    ((small []).memWrite16 0xFFFF 0xABCD).byteAt 0x0000 = 0xAB ∧
    ((small []).memWrite16 0xFFFF 0xABCD).byteAt 0xFFFF = 0xCD := by decide

/-! ### For each statement with hypotheses, a case that meets them -/

theorem witness_DecodeOfEncodeIsTheInstruction :
    (Instr.ldax .de).wellFormed = true ∧ (Instr.stax .bc).wellFormed = true ∧ (Instr.push .hl).wellFormed = true ∧
    (Instr.pop .hl).wellFormed = true ∧ (Instr.rst 7).wellFormed = true ∧ (Instr.lda 0xFFFF).wellFormed = true := by
  decide

theorem witness_UndefinedOpcodesAreRefused : isUndefinedOpcode 0x08 = true ∧ isUndefinedOpcode 0xFD = true := by decide

theorem witness_StepRunsTheDecodedInstruction :
    (machine 0xFFFE 0 [] 0 [0xC3, 0x00, 0x82] []).fetches = true ∧
    (machine 0xFFFE 0 [] 0 [0xC3, 0x00, 0x82] []).codeStored = true ∧
    decodeBytes (machine 0xFFFE 0 [] 0 [0xC3, 0x00, 0x82] []).codeBytes = .instr (.jmp 0x8200) [] := by decide

theorem witness_FetchReadsTheInstructionBytes_hypotheses :
    (small [0xC2, 0x50, 0x20]).fetches = true ∧
    (small [0xC2, 0x50, 0x20]).memRead 0x2000 = (0xC2, small [0xC2, 0x50, 0x20]) ∧
    (small [0xC2, 0x50, 0x20]).memRead 0x2001 = (0x50, small [0xC2, 0x50, 0x20]) ∧
    (small [0xC2, 0x50, 0x20]).memRead 0x2002 = (0x20, small [0xC2, 0x50, 0x20]) := by decide
theorem witness_FetchReadsTheInstructionBytes_lengths :
    opcodeLength 0x00 = 1 ∧ opcodeLength 0xFE = 2 ∧ opcodeLength 0xC2 = 3 ∧
    fetchCondition (decode 0xC2 0x50 0x20) = some .nz ∧
    condHolds .nz (small [0xC2, 0x50, 0x20]).flags = true := by decide

/-- 2000H to 2FFFH is a device, 3000H to 3FFFH answers nothing, from C000H on there is ROM, the rest is RAM. -/
def someMap : List Region :=
  [{ first := 0x2000, last := 0x2FFF, kind := .device }, { first := 0x3000, last := 0x3FFF, kind := .unpopulated },
   { first := 0xC000, last := 0xFFFF, kind := .rom }]
theorem witness_MemoryAccessByKind :
    (withMap (small []) someMap).kindAt 0x1FFF = .ram ∧ (withMap (small []) someMap).kindAt 0x2000 = .device ∧
    (withMap (small []) someMap).kindAt 0x2FFF = .device ∧
    (withMap (small []) someMap).kindAt 0x3000 = .unpopulated ∧
    (withMap (small []) someMap).kindAt 0x3FFF = .unpopulated ∧ (withMap (small []) someMap).kindAt 0x4000 = .ram ∧
    (withMap (small []) someMap).kindAt 0xC000 = .rom ∧ (withMap (small []) someMap).kindAt 0xFFFF = .rom ∧
    (0x0001 : Word) ≠ 0x0000 := by decide
theorem witness_MemoryAccessByKind_answers :
    ({ withMap (small []) someMap with env := { Env.initial with deviceAnswers := [0x5A] } } : State).env.deviceAnswers =
      0x5A :: [] := by decide

/-- A conditional jump whose condition is false. -/
def notTaken : State := machine 0x2000 0x4000 [] 0b01000 [0xC2, 0x50, 0x20] []
theorem witness_FalseConditionSkipsByteThree :
    notTaken.fetches = true ∧ notTaken.memRead 0x2000 = (0xC2, notTaken) ∧
    notTaken.memRead 0x2001 = (0x50, notTaken) ∧ fetchCondition (decode 0xC2 0 0) = some .nz ∧
    condHolds .nz notTaken.flags = false := by decide

theorem witness_HaltedStepOnlySamples :
    ({ small [] with halted := true } : State).halted = true ∧
    ({ small [] with halted := true } : State).env.input.resetIn = false := by decide

theorem witness_EveryDefinedInstructionCompletes :
    isUndefinedOpcode (Instr.nop).opcode = false ∧ isUndefinedOpcode (Instr.rst 7).opcode = false := by decide

theorem witness_StepStopsOnlyWhereTheSpecIsOpen_undefined :
    step (small [0xFD]) = .refused (.undefinedOpcode 0x2000 0xFD) := rfl
theorem witness_StepStopsOnlyWhereTheSpecIsOpen_acknowledge :
    step (interrupted [0x00]) = .refused (.acknowledgeByte 0x00) := rfl

theorem witness_StepKeepsMemoryForm : ∃ t, (small [0xC5]).mem.wf = true ∧ step (small [0xC5]) = .next t :=
  ⟨_, by decide, rfl⟩

theorem witness_StepChangesOnlyRamCells :
    ∃ t, step (withMap (small [0x32, 0x00, 0xC0]) [{ first := 0xC000, last := 0xFFFF, kind := .rom }]) = .next t ∧
      (withMap (small [0x32, 0x00, 0xC0]) [{ first := 0xC000, last := 0xFFFF, kind := .rom }]).kindAt 0xC000 ≠ .ram :=
  ⟨_, rfl, by decide⟩

theorem witness_FetchSeesTheStoreBefore :
    (machine 0xFFFD 0 [] 0 [0x32, 0x00, 0x00] []).fetches = true ∧
    (machine 0xFFFD 0 [] 0 [0x32, 0x00, 0x00] []).env.memMap = [] ∧
    (machine 0xFFFD 0 [] 0 [0x32, 0x00, 0x00] []).byteAt 0xFFFD = 0x32 ∧
    (machine 0xFFFD 0 [] 0 [0x32, 0x00, 0x00] []).byteAt (0xFFFD + 1) = loByte (0xFFFD + 3) ∧
    (machine 0xFFFD 0 [] 0 [0x32, 0x00, 0x00] []).byteAt (0xFFFD + 2) = hiByte (0xFFFD + 3) ∧
    (IntCtl.reset.latch StepInput.quiet.pins).recognise StepInput.quiet.pins = none := by decide

theorem witness_LoadsFromMemory : RegPair.bc.indirect = true ∧ RegPair.de.indirect = true := by decide
theorem witness_StoresToMemory : RegPair.bc.indirect = true ∧ RegPair.de.indirect = true := by decide
theorem witness_RegisterTransfers : RegPair.bc ≠ .sp ∧ RegPair.hl ≠ .sp := by decide
theorem witness_RegisterPairArithmetic : RegPair.bc ≠ .sp ∧ RegPair.hl ≠ .sp := by decide
theorem witness_PushAndPopPairs :
    RegPair.bc.stackable = true ∧ RegPair.de.stackable = true ∧ RegPair.hl.stackable = true := by decide

theorem witness_DecimalAdjustMakesTheDecimalSum :
    isBcd ((small []).reg .a) = true ∧ isBcd 0x99 = true := by decide

theorem witness_CallThenReturnComesBack :
    (machine 0x2000 0x0001 [] 0 [] []).kindAt (0x0001 - 1) = .ram ∧
    (machine 0x2000 0x0001 [] 0 [] []).kindAt (0x0001 - 2) = .ram ∧ (0x2000 : Word) ≠ 0x0001 - 1 ∧
    (0x2000 : Word) ≠ 0x0001 - 2 := by decide
theorem witness_ProgramStatusComesBack :
    (machine 0x2000 0x0001 [] 0 [] []).kindAt (0x0001 - 1) = .ram ∧
    (machine 0x2000 0x0001 [] 0 [] []).kindAt (0x0001 - 2) = .ram := by decide

theorem witness_RimReadsTheInterruptState :
    (withInput (small []) { StepInput.quiet with sid := some true }).env.input.sid = some true ∧
    ({ IntCtl.reset with trapIe := some true } : IntCtl).trapIe = some true ∧ IntCtl.reset.trapIe = none := by decide

theorem witness_PortInputAndOutput :
    ({ small [] with env := { Env.initial with portAnswers := [0x80] } } : State).env.portAnswers = 0x80 :: [] := by
  decide

theorem witness_FlagsChangeOnlyWhereTheTableSays_exec :
    ∃ t, writesFlags .xthl = false ∧ exec .xthl (small []) = .next t := ⟨_, by decide, rfl⟩
theorem witness_FlagsChangeOnlyWhereTheTableSays_sample : ∃ t, (small []).sampleInterrupts = .next t := ⟨_, rfl⟩

theorem witness_MasksAndSodChangeOnlyBySim_running :
    ∃ t, step (small [0x00]) = .next t ∧ (small [0x00]).env.input.resetIn = false ∧ (small [0x00]).fetch.1 ≠ .sim :=
  ⟨_, rfl, by decide, by decide⟩
theorem witness_MasksAndSodChangeOnlyBySim_halted :
    ∃ t, step { small [0x30] with halted := true } = .next t := ⟨_, rfl⟩

theorem witness_OnlyEiEnablesInterrupts :
    ∃ t, step (small [0xFB]) = .next t ∧ (small [0xFB]).int.inte = false ∧ t.int.inte = true :=
  ⟨_, rfl, rfl, rfl⟩

theorem witness_EveryStepClearsTheEiDelay :
    ∃ t, step { small [0x00] with int := { IntCtl.reset with eiDelay := true } } = .next t := ⟨_, rfl⟩

theorem witness_RestartSevenFiveStaysPending :
    ∃ t, step (small [0x00]) = .next t ∧ (small [0x00]).env.input.resetIn = false ∧ t.int.r75 = false ∧
      t.pc ≠ 0x003C := ⟨_, rfl, rfl, rfl, by decide⟩
theorem witness_RestartSevenFiveStaysPending_sim :
    ∃ t, step ({ small [0x30] with int := { IntCtl.reset with r75 := true } }.setReg .a 0x10) = .next t ∧
      t.int.r75 = false ∧ t.pc ≠ 0x003C := ⟨_, rfl, rfl, by decide⟩

theorem witness_InterruptAcknowledge :
    (interrupted [0xC7]).env.ackAnswers = (0b11#2 ++ 0#3 ++ 0b111#3) :: [] ∧
    (interrupted [0xFF]).env.ackAnswers = (0b11#2 ++ 7#3 ++ 0b111#3) :: [] ∧
    (interrupted [0xCD, 0xFF, 0x00]).env.ackAnswers = 0xCD :: 0xFF :: 0x00 :: [] ∧
    (interrupted [0x00]).env.ackAnswers = 0x00 :: [] ∧ isAcknowledgeByte 0x00 = false ∧
    isAcknowledgeByte 0xCC = false := by decide

theorem witness_InterruptThenReturnResumes :
    Interrupt.trap ≠ .intr ∧ (machine 0x2000 0x0001 [] 0 [] []).kindAt (0x0001 - 1) = .ram ∧
    (machine 0x2000 0x0001 [] 0 [] []).kindAt (0x0001 - 2) = .ram := by decide

theorem witness_EiStepTakesNoMaskableInterrupt :
    (small [0xFB, 0x00, 0x00]).fetches = true ∧ (small [0xFB, 0x00, 0x00]).codeStored = true ∧
    (small [0xFB, 0x00, 0x00]).byteAt 0x2000 = 0xFB ∧
    trapComes (small [0xFB, 0x00, 0x00]).int (small [0xFB, 0x00, 0x00]).env.input.pins = false := by decide

/-- EI; RET with RST 7.5 pending and unmasked. -/
def routineEnd : State :=
  { machine 0x003C 0x3FFE [] 0 [0xFB, 0xC9] [(0x3FFE, 0x10), (0x3FFF, 0x20)] with
    int := { IntCtl.reset with m75 := false, r75 := true } }
theorem witness_EiThenReturnReturnsFirst :
    routineEnd.fetches = true ∧ routineEnd.env.memMap = [] ∧ routineEnd.env.inputs = [] ∧
    routineEnd.byteAt 0x003C = 0xFB ∧ routineEnd.byteAt (0x003C + 1) = 0xC9 ∧ routineEnd.int.r75 = true ∧
    routineEnd.int.m75 = false := by decide

/-- Halted with interrupts disabled and RST 6.5 high. -/
def disabledHalt : State :=
  withPins { small [] with halted := true, int := { IntCtl.reset with m65 := false } }
    { PinSample.quiet with r65Level := true }
theorem witness_DisabledHaltEndsOnlyByTrapOrReset :
    ∃ t, disabledHalt.halted = true ∧ disabledHalt.int.inte = false ∧ disabledHalt.env.input.resetIn = false ∧
      trapComes disabledHalt.int disabledHalt.env.input.pins = false ∧ step disabledHalt = .next t :=
  ⟨_, rfl, rfl, rfl, rfl, rfl⟩

theorem witness_EndedRunStaysEnded : disabledHalt.runEnded = true := by decide

theorem witness_ResetEventFixedValues :
    (withInput (small []) { StepInput.quiet with resetIn := true }).env.input.resetIn = true := by decide

theorem witness_ResetForgetsTheRegisters :
    ∃ t t', (withInput ((small []).setReg .a 0x5A) { StepInput.quiet with resetIn := true }).env =
        (withInput (small []) { StepInput.quiet with resetIn := true }).env ∧
      step (withInput (small []) { StepInput.quiet with resetIn := true }) = .next t ∧
      step (withInput ((small []).setReg .a 0x5A) { StepInput.quiet with resetIn := true }) = .next t' :=
  ⟨_, _, rfl, rfl, rfl⟩

end Sys2Proof.Tests
end

/-! SUPPORT. Scope (spec/00_scope R12, R13): which bytes a fetch reads, what a step runs, and where it stops. -/

namespace Sys2Proof

/-- Encoding keeps the opcode byte an instruction was decoded from (R72, R73). -/
@[simp] theorem opcode_decode (op b2 b3 : Byte) : (decode op b2 b3).opcode = op := by
  revert op
  apply byte_cases
  intro n
  fin_cases n <;> rfl

end Sys2Proof

namespace Sys2Proof.Machine

/-- Quadrant 00 has no conditional jump and no conditional call (R78). -/
theorem fetchCondition_decodeQuadrant00 (y z : BitVec 3) (pp : BitVec 2) (b2 b3 : Byte) :
    fetchCondition (decodeQuadrant00 y z pp b2 b3) = none := by
  unfold decodeQuadrant00
  repeat' split
  all_goals rfl

/-- In quadrant 11 the operand bytes fill in the target alone (R80). -/
theorem fetchCondition_decodeQuadrant11 (y z : BitVec 3) (pp : BitVec 2) (b2 b3 : Byte) :
    fetchCondition (decodeQuadrant11 y z pp b2 b3) = fetchCondition (decodeQuadrant11 y z pp 0 0) := by
  unfold decodeQuadrant11
  generalize z.toNat = zn
  generalize y.toNat = yn
  repeat' split
  all_goals rfl

/-- The condition a fetch looks at is a function of the opcode byte alone (R76, R180 h). -/
theorem fetchCondition_decode (op b2 b3 : Byte) :
    fetchCondition (decode op b2 b3) = fetchCondition (decode op 0 0) := by
  unfold decode
  dsimp only
  split
  · rw [fetchCondition_decodeQuadrant00, fetchCondition_decodeQuadrant00]
  · rfl
  · rfl
  · exact fetchCondition_decodeQuadrant11 _ _ _ b2 b3

/-- Byte 3 is read when the condition, if the instruction has one, holds (R58). -/
theorem skipsByte3_eq_false (op b2 b3 : Byte) (f : Flags)
    (h : ∀ k, fetchCondition (decode op b2 b3) = some k → condHolds k f = true) : skipsByte3 op f = false := by
  rw [fetchCondition_decode] at h
  unfold skipsByte3
  split
  · next k hk => simp [h k hk]
  · rfl

/-! ### Fetching -/

theorem State.fetch_of_length_one {s s1 : State} {op : Byte} (h1 : s.memRead s.pc = (op, s1))
    (hl : opcodeLength op = 1) : s.fetch = (decode op 0 0, s1) := by
  simp only [State.fetch, h1, hl]

theorem State.fetch_of_length_two {s s1 s2 : State} {op b2 : Byte} (h1 : s.memRead s.pc = (op, s1))
    (h2 : s1.memRead (s.pc + 1) = (b2, s2)) (hl : opcodeLength op = 2) : s.fetch = (decode op b2 0, s2) := by
  simp only [State.fetch, h1, h2, hl]

theorem State.fetch_of_length_three {s s1 s2 s3 : State} {op b2 b3 : Byte} (h1 : s.memRead s.pc = (op, s1))
    (h2 : s1.memRead (s.pc + 1) = (b2, s2)) (h3 : s2.memRead (s.pc + 2) = (b3, s3)) (hl : opcodeLength op = 3)
    (hk : skipsByte3 op s.flags = false) : s.fetch = (decode op b2 b3, s3) := by
  simp only [State.fetch, h1, h2, h3, hl, hk, Bool.false_eq_true, if_false]

theorem State.fetch_of_skipsByte3 {s s1 s2 : State} {op b2 : Byte} (h1 : s.memRead s.pc = (op, s1))
    (h2 : s1.memRead (s.pc + 1) = (b2, s2)) (hl : opcodeLength op = 3) (hk : skipsByte3 op s.flags = true) :
    s.fetch = (decode op b2 (s2.byteAt (s.pc + 2)), s2) := by
  simp only [State.fetch, h1, h2, hl, hk, if_true]

/-- The fetched instruction begins with the byte read at pc. -/
theorem State.fetch_opcode (s : State) : s.fetch.1.opcode = (s.memRead s.pc).1 := by
  simp only [State.fetch]
  split
  · exact opcode_decode _ _ _
  · exact opcode_decode _ _ _
  · split <;> exact opcode_decode _ _ _

theorem State.codeStored_iff (s : State) :
    s.codeStored = true ↔ s.stored s.pc = true ∧ s.stored (s.pc + 1) = true ∧ s.stored (s.pc + 2) = true := by
  simp [State.codeStored, and_assoc]

/-- Code in RAM or ROM is fetched without a side effect (R55, R57). -/
theorem State.fetch_of_codeStored (s : State) (h : s.codeStored = true) :
    s.fetch = (decode (s.byteAt s.pc) (s.byteAt (s.pc + 1)) (s.byteAt (s.pc + 2)), s) := by
  obtain ⟨hs1, hs2, hs3⟩ := s.codeStored_iff.mp h
  have h1 := s.memRead_stored _ hs1
  have h2 := s.memRead_stored _ hs2
  have h3 := s.memRead_stored _ hs3
  rcases opcodeLength_cases (s.byteAt s.pc) with hl | hl | hl
  · rw [fetch_of_length_one h1 hl, ← decode_of_length_one _ _ _ hl]
  · rw [fetch_of_length_two h1 h2 hl, ← decode_of_length_two _ _ _ hl]
  · cases hk : skipsByte3 (s.byteAt s.pc) s.flags with
    | true => exact fetch_of_skipsByte3 h1 h2 hl hk
    | false => exact fetch_of_length_three h1 h2 h3 hl hk

/-! ### The step -/

theorem State.fetches_iff (s : State) : s.fetches = true ↔ s.env.input.resetIn = false ∧ s.halted = false := by
  simp [State.fetches]

theorem step_of_fetches (s : State) (h : s.fetches = true) : step s = thenSample (exec s.fetch.1 s.fetch.2) := by
  obtain ⟨hr, hh⟩ := s.fetches_iff.mp h
  simp only [step, hr, hh, Bool.false_eq_true, if_false]
  rfl

theorem step_of_halted (s : State) (hh : s.halted = true) (hr : s.env.input.resetIn = false) :
    step s = s.sampleInterrupts := by
  simp [step, hr, hh]

/-- An instruction has a next state, unless its opcode byte is one of the ten undefined ones, which are refused
(R13, R81, R240). -/
theorem exec_cases (i : Instr) (s : State) :
    (∃ t, exec i s = .next t) ∨
    (isUndefinedOpcode i.opcode = true ∧ exec i s = .refused (.undefinedOpcode s.pc i.opcode)) := by
  cases i with
  | undef08 | undef10 | undef18 | undef28 | undef38 | undefCB | undefD9 | undefDD | undefED | undefFD =>
    exact .inr ⟨rfl, rfl⟩
  | _ => exact .inl ⟨_, rfl⟩

/-! ### Where a step stops -/

/-- The two tests of the acknowledge cycle are those of `isAcknowledgeByte` (R250). -/
theorem isAcknowledgeByte_iff (v : Byte) :
    isAcknowledgeByte v = true ↔
      ((v.extractLsb' 6 2 : BitVec 2) = 0b11 ∧ (v.extractLsb' 0 3 : BitVec 3) = 0b111) ∨ v = 0xCD := by
  revert v; decide

theorem State.acknowledgeIntr_refused {s : State} {r : Refusal} (h : s.acknowledgeIntr = .refused r) :
    ∃ v, r = .acknowledgeByte v ∧ isAcknowledgeByte v = false := by
  unfold State.acknowledgeIntr at h
  dsimp only at h
  split at h
  · cases h
  · next hrst =>
    split at h
    · cases h
    · next hcall =>
      injection h with hr
      refine ⟨_, hr.symm, Bool.eq_false_iff.mpr fun hack => ?_⟩
      exact ((isAcknowledgeByte_iff _).mp hack).elim hrst hcall

/-- Of the five interrupts INTR alone can be refused. -/
theorem State.takeInterrupt_refused {s : State} {x : Interrupt} {r : Refusal} (h : s.takeInterrupt x = .refused r) :
    ∃ v, r = .acknowledgeByte v ∧ isAcknowledgeByte v = false := by
  cases x with
  | trap | rst75 | rst65 | rst55 => cases h
  | intr => exact State.acknowledgeIntr_refused h

theorem State.sampleInterrupts_refused {s : State} {r : Refusal} (h : s.sampleInterrupts = .refused r) :
    ∃ v, r = .acknowledgeByte v ∧ isAcknowledgeByte v = false := by
  cases hr : s.recognised with
  | none => rw [s.sampleInterrupts_none hr] at h; cases h
  | some x => rw [s.sampleInterrupts_some x hr] at h; exact State.takeInterrupt_refused h

/-- A refused step was refused at a sampling point, or its instruction was. -/
theorem step_refused_cases {s : State} {r : Refusal} (h : step s = .refused r) :
    (∃ u : State, u.sampleInterrupts = .refused r) ∨
    (s.fetches = true ∧ exec s.fetch.1 s.fetch.2 = .refused r) := by
  cases hr : s.env.input.resetIn with
  | true => simp [step, hr] at h
  | false =>
    cases hh : s.halted with
    | true => exact .inl ⟨s, by rwa [step_of_halted s hh hr] at h⟩
    | false =>
      have hf : s.fetches = true := s.fetches_iff.mpr ⟨hr, hh⟩
      rw [step_of_fetches s hf] at h
      obtain ⟨t, ht⟩ | ⟨-, hu⟩ := exec_cases s.fetch.1 s.fetch.2
      · rw [ht] at h
        exact .inl ⟨t, h⟩
      · rw [hu] at h ⊢
        exact .inr ⟨hf, h⟩

/-! ### The statements -/

/-- Settles O6, by the length of the instruction. -/
theorem fetchReadsTheInstructionBytes : Obligations.FetchReadsTheInstructionBytes := by
  intro s s1 s2 s3 op b2 b3 hf h1 h2 h3
  rw [step_of_fetches s hf]
  refine ⟨fun hl => ?_, fun hl => ?_, fun hl hk => ?_⟩
  · rw [State.fetch_of_length_one h1 hl, ← decode_of_length_one op b2 b3 hl]
  · rw [State.fetch_of_length_two h1 h2 hl, ← decode_of_length_two op b2 b3 hl]
  · rw [State.fetch_of_length_three h1 h2 h3 hl (skipsByte3_eq_false op b2 b3 _ hk)]

/-- Settles O10: an instruction is refused for its opcode byte only, a sampling point for the acknowledge byte only. -/
theorem stepStopsOnlyWhereTheSpecIsOpen : Obligations.StepStopsOnlyWhereTheSpecIsOpen := by
  intro s r h
  obtain ⟨u, hu⟩ | ⟨hf, he⟩ := step_refused_cases h
  · exact .inr (State.sampleInterrupts_refused hu)
  · obtain ⟨t, ht⟩ | ⟨hop, hrefused⟩ := exec_cases s.fetch.1 s.fetch.2
    · rw [ht] at he; cases he
    · rw [hrefused] at he
      injection he with hr
      rw [s.fetch_opcode] at hop hr
      exact .inl ⟨_, by rw [← hr, s.fetch_pc], hop, hf, rfl⟩

/-- Settles O5: stored code is fetched without a side effect, and three bytes decode to one instruction. -/
theorem stepRunsTheDecodedInstruction : Obligations.StepRunsTheDecodedInstruction := by
  intro s i rest hf hc hd
  obtain ⟨_, hfull⟩ := decodeBytes_full (s.byteAt s.pc) (s.byteAt (s.pc + 1)) (s.byteAt (s.pc + 2))
  have hi : decode (s.byteAt s.pc) (s.byteAt (s.pc + 1)) (s.byteAt (s.pc + 2)) = i := by
    injection hfull.symm.trans hd
  rw [step_of_fetches s hf, s.fetch_of_codeStored hc, hi]

/-- Settles O8. -/
theorem haltedStepOnlySamples : Obligations.HaltedStepOnlySamples := step_of_halted

end Sys2Proof.Machine

/-! SUPPORT. State (spec/10_state R28 to R41): what instructions, acceptance and the sampling point leave in the flags,
in the interrupt control state and in SOD, and what a step and a RESET event make of them. -/

namespace Sys2Proof.Machine

/-! ### The interrupt control state under acceptance and the edges -/

/-- The three masks are the same (R34). -/
def SameMasks (c d : IntCtl) : Prop := d.m55 = c.m55 ∧ d.m65 = c.m65 ∧ d.m75 = c.m75

theorem SameMasks.refl (c : IntCtl) : SameMasks c c := ⟨rfl, rfl, rfl⟩

theorem SameMasks.trans {c d e : IntCtl} (h : SameMasks c d) (h' : SameMasks d e) : SameMasks c e := by
  obtain ⟨h55, h65, h75⟩ := h
  obtain ⟨k55, k65, k75⟩ := h'
  exact ⟨k55.trans h55, k65.trans h65, k75.trans h75⟩

/-- Acceptance leaves the masks (R248). -/
theorem IntCtl.accept_sameMasks (c : IntCtl) (x : Interrupt) : SameMasks c (c.accept x) := by
  cases x <;> exact ⟨rfl, rfl, rfl⟩

@[simp] theorem IntCtl.accept_inte (c : IntCtl) (x : Interrupt) : (c.accept x).inte = false := by cases x <;> rfl

@[simp] theorem IntCtl.accept_eiDelay (c : IntCtl) (x : Interrupt) : (c.accept x).eiDelay = c.eiDelay := by
  cases x <;> rfl

/-- RST 7.5 alone clears the latch of RST 7.5 (R35). -/
theorem IntCtl.accept_r75 (c : IntCtl) {x : Interrupt} (hx : x ≠ .rst75) : (c.accept x).r75 = c.r75 := by
  cases x with
  | rst75 => exact absurd rfl hx
  | trap | rst65 | rst55 | intr => rfl

/-! ### Acceptance and the sampling point -/

/-- Taking an interrupt leaves the flags and SOD and accepts in the control state; RST 7.5 enters at 003CH (R241,
R248). -/
theorem State.takeInterrupt_keeps {s t : State} {x : Interrupt} (h : s.takeInterrupt x = .next t) :
    t.flags = s.flags ∧ t.sod = s.sod ∧ t.int = s.int.accept x ∧ (x = .rst75 → t.pc = 0x003C) := by
  obtain ⟨e, a, rfl, -, -, hentry⟩ := State.takeInterrupt_cases s t x h
  refine ⟨rfl, rfl, rfl, ?_⟩
  rintro rfl
  exact (hentry 0x003C rfl).1

theorem State.sampleInterrupts_flags {s t : State} (h : s.sampleInterrupts = .next t) : t.flags = s.flags := by
  obtain ⟨-, rfl⟩ | ⟨x, -, hx⟩ := State.sampleInterrupts_cases s t h
  · rfl
  · obtain ⟨hflags, -⟩ := State.takeInterrupt_keeps hx
    exact hflags

theorem State.sampleInterrupts_sod {s t : State} (h : s.sampleInterrupts = .next t) : t.sod = s.sod := by
  obtain ⟨-, rfl⟩ | ⟨x, -, hx⟩ := State.sampleInterrupts_cases s t h
  · rfl
  · obtain ⟨-, hsod, -⟩ := State.takeInterrupt_keeps hx
    exact hsod

/-- What a sampling point leaves in the control state: the edges latched and ei_delay cleared, and at most one
acceptance on top (R246). -/
theorem State.sampleInterrupts_int {s t : State} (h : s.sampleInterrupts = .next t) :
    t.int = s.sampled.int ∨ ∃ x, t.int = s.sampled.int.accept x ∧ (x = .rst75 → t.pc = 0x003C) := by
  obtain ⟨-, rfl⟩ | ⟨x, -, hx⟩ := State.sampleInterrupts_cases s t h
  · exact .inl rfl
  · obtain ⟨-, -, hint, hpc⟩ := State.takeInterrupt_keeps hx
    exact .inr ⟨x, hint, hpc⟩

theorem State.sampleInterrupts_sameMasks {s t : State} (h : s.sampleInterrupts = .next t) : SameMasks s.int t.int := by
  obtain hint | ⟨x, hint, -⟩ := State.sampleInterrupts_int h
  · rw [hint]; exact ⟨rfl, rfl, rfl⟩
  · rw [hint]; exact s.sampled.int.accept_sameMasks x

theorem State.sampleInterrupts_eiDelay {s t : State} (h : s.sampleInterrupts = .next t) : t.int.eiDelay = false := by
  obtain hint | ⟨x, hint, -⟩ := State.sampleInterrupts_int h
  · rw [hint]; rfl
  · rw [hint, IntCtl.accept_eiDelay]; rfl

/-- A sampling point does not set INTE (R246, R248). -/
theorem State.inte_of_sampleInterrupts {s t : State} (h : s.sampleInterrupts = .next t) (ht : t.int.inte = true) :
    s.int.inte = true := by
  obtain hint | ⟨x, hint, -⟩ := State.sampleInterrupts_int h
  · rw [hint] at ht; exact ht
  · simp [hint] at ht

/-- After a sampling point that does not enter RST 7.5, its latch is clear only if it was and no edge came (R35,
R243). -/
theorem State.r75_of_sampleInterrupts {s t : State} (h : s.sampleInterrupts = .next t) (hr : t.int.r75 = false)
    (hpc : t.pc ≠ 0x003C) : s.int.r75 = false ∧ s.env.input.pins.r75Edge = false := by
  have hsampled : s.sampled.int.r75 = false := by
    obtain hint | ⟨x, hint, hentry⟩ := State.sampleInterrupts_int h
    · rwa [hint] at hr
    · rwa [hint, IntCtl.accept_r75 _ fun hx => hpc (hentry hx)] at hr
  exact Bool.or_eq_false_iff.mp hsampled

/-! ### Instructions -/

/-- An instruction outside the writing rows of the flag table leaves the flags (R29). -/
theorem exec_flags {i : Instr} {s t : State} (hw : writesFlags i = false) (h : exec i s = .next t) :
    t.flags = s.flags := by
  cases i with
  | addR | addM | adcR | adcM | adi | aci | dad | daa | subR | subM | sbbR | sbbM | sui | sbi | inrR | inrM | dcrR
  | dcrM | anaR | anaM | ani | xraR | xraM | xri | oraR | oraM | ori | cmpR | cmpM | cpi | stc | cmc | rlc | rrc | ral
  | rar | popPsw => cases hw
  | undef08 | undef10 | undef18 | undef28 | undef38 | undefCB | undefD9 | undefDD | undefED | undefFD => cases h
  | jnz | jz | jnc | jc | jpo | jpe | jp | jm => cases h; exact State.jumpIf_flags s _ _
  | cnz | cz | cnc | cc | cpo | cpe | cp | cm => cases h; exact State.callIf_flags s _ _
  | rnz | rz | rnc | rc | rpo | rpe | rp | rm => cases h; exact State.returnIf_flags s _
  | lxi | inx | dcx | pop => cases h; exact State.setPair_flags _ _ _
  | sim => cases h; dsimp only; split <;> rfl
  | _ => cases h; rfl

/-- What an instruction leaves in the interrupt control state: EI, DI, SIM and RIM alone write it (R222 to R225). -/
def intAfter (i : Instr) (s : State) : IntCtl :=
  match i with
  | .ei => { s.int with inte := true, eiDelay := true }
  | .di => { s.int with inte := false }
  | .sim => s.int.sim (s.reg .a)
  | .rim => { s.int with trapIe := none }
  | _ => s.int

/-- An instruction leaves `intAfter` in the control state, and SIM alone writes SOD (R37). -/
theorem exec_control {i : Instr} {s t : State} (h : exec i s = .next t) :
    t.int = intAfter i s ∧ (i ≠ .sim → t.sod = s.sod) := by
  cases i with
  | undef08 | undef10 | undef18 | undef28 | undef38 | undefCB | undefD9 | undefDD | undefED | undefFD => cases h
  | sim => cases h; exact ⟨rfl, fun hsim => absurd rfl hsim⟩
  | _ => cases h; simp [intAfter]

/-- No instruction uses up an input: that is the sampling point's (log 9). -/
theorem exec_inputs {i : Instr} {s t : State} (h : exec i s = .next t) : t.env.inputs = s.env.inputs := by
  cases i with
  | undef08 | undef10 | undef18 | undef28 | undef38 | undefCB | undefD9 | undefDD | undefED | undefFD => cases h
  | sim => cases h; dsimp only [State.advance_env]; split <;> simp
  | _ => cases h; simp

/-- EI alone sets INTE (R33). -/
theorem intAfter_inte {i : Instr} {s : State} (h : (intAfter i s).inte = true) : i = .ei ∨ s.int.inte = true := by
  unfold intAfter at h
  split at h
  · exact .inl rfl
  · cases h
  all_goals exact .inr h

/-- SIM alone writes the masks (R34). -/
theorem intAfter_sameMasks {i : Instr} (s : State) (hi : i ≠ .sim) : SameMasks s.int (intAfter i s) := by
  unfold intAfter
  split
  case h_3 => exact absurd rfl hi -- the arm of SIM
  all_goals exact ⟨rfl, rfl, rfl⟩

/-- SIM with bit 4 of A alone clears the latch of RST 7.5 (R35, R224). -/
theorem intAfter_r75 {i : Instr} {s : State} (h : (intAfter i s).r75 = false) :
    (i = .sim ∧ (s.reg .a).getLsbD 4 = true) ∨ s.int.r75 = false := by
  unfold intAfter at h
  split at h
  case h_3 => -- the arm of SIM
    cases h4 : (s.reg .a).getLsbD 4 with
    | true => exact .inl ⟨rfl, rfl⟩
    | false => exact .inr (by simpa only [IntCtl.sim, h4, Bool.false_eq_true, if_false] using h)
  all_goals exact .inr h

theorem getLsbD_three_append {w : Nat} (v : BitVec w) (b c d e : Bool) :
    (v ++ BitVec.ofBool b ++ BitVec.ofBool c ++ BitVec.ofBool d ++ BitVec.ofBool e).getLsbD 3 = b := by
  simp [BitVec.getElem_append]

/-- RIM shows in bit 3 of A the INTE that trap_ie has kept, or else INTE itself (R39 b, R225). -/
theorem IntCtl.rimByte_getLsbD_three (c : IntCtl) (x : StepInput) (sid : Bool) :
    (c.rimByte x sid).getLsbD 3 = c.trapIe.getD c.inte :=
  getLsbD_three_append _ _ _ _ _

/-- RIM shows the kept INTE once: it forgets trap_ie (R39 b). -/
theorem exec_rim_bit3 (s : State) :
    ∃ t, exec .rim s = .next t ∧ (t.reg .a).getLsbD 3 = s.int.trapIe.getD s.int.inte ∧
      t.int = { s.int with trapIe := none } := by
  refine ⟨_, rfl, ?_, rfl⟩
  rw [State.reg_advance, State.reg_setReg_same, IntCtl.rimByte_getLsbD_three]

/-! ### The stack in RAM -/

theorem State.byteAt_pushBytes_low (s : State) (hi lo : Byte) (h : s.kindAt (s.sp - 2) = .ram) :
    (s.pushBytes hi lo).byteAt (s.sp - 2) = lo := by
  rw [State.pushBytes, State.setSp_byteAt, State.byteAt_memWrite, if_pos ⟨rfl, (s.memWrite_kindAt _ _ _).trans h⟩]

theorem State.byteAt_pushBytes_high (s : State) (hi lo : Byte) (h : s.kindAt (s.sp - 1) = .ram) :
    (s.pushBytes hi lo).byteAt (s.sp - 1) = hi := by
  have hne : s.sp - 1 ≠ s.sp - 2 := by bv_omega
  rw [State.pushBytes, State.setSp_byteAt, State.byteAt_memWrite, if_neg fun hc => hne hc.1, State.byteAt_memWrite,
    if_pos ⟨rfl, h⟩]

/-- Two bytes pushed to RAM are popped again from any later state with that SP, memory and memory map (R180 f). -/
theorem State.popWord_of_pushBytes {s t : State} {hi lo : Byte} (h1 : s.kindAt (s.sp - 1) = .ram)
    (h2 : s.kindAt (s.sp - 2) = .ram) (hsp : t.sp = s.sp - 2) (hmem : t.mem = (s.pushBytes hi lo).mem)
    (hmap : t.env.memMap = s.env.memMap) : t.popWord.1 = wordOf hi lo ∧ t.popWord.2.sp = s.sp := by
  have hnext : s.sp - 2 + 1 = s.sp - 1 := by bv_omega
  have hlow : t.stored (s.sp - 2) = true := State.stored_of_ram ((State.kindAt_of_memMap hmap _).trans h2)
  have hhigh : t.stored (s.sp - 2 + 1) = true := by
    rw [hnext]; exact State.stored_of_ram ((State.kindAt_of_memMap hmap _).trans h1)
  constructor
  · calc t.popWord.1 = (t.memRead16 (s.sp - 2)).1 := by rw [← hsp]; rfl
      _ = wordOf (t.byteAt (s.sp - 1)) (t.byteAt (s.sp - 2)) := by rw [t.memRead16_stored _ hlow hhigh, hnext]
      _ = wordOf hi lo := by
        rw [State.byteAt_of_mem hmem, State.byteAt_of_mem hmem, s.byteAt_pushBytes_high hi lo h1,
          s.byteAt_pushBytes_low hi lo h2]
  · rw [State.popWord_sp, hsp]; bv_omega

/-! ### The step -/

/-- A step without RESET samples at its end, from the state the halt or its instruction left (R12). -/
theorem step_samples {s t : State} (h : step s = .next t) (hr : s.env.input.resetIn = false) :
    ∃ u : State, u.sampleInterrupts = .next t ∧
      ((s.halted = true ∧ u = s) ∨ (s.fetches = true ∧ exec s.fetch.1 s.fetch.2 = .next u)) := by
  obtain ⟨hr', -⟩ | ⟨-, hh, hs⟩ | ⟨-, hh, u, hu, hs⟩ := step_cases s t h
  · rw [hr] at hr'; cases hr'
  · exact ⟨s, hs, .inl ⟨hh, rfl⟩⟩
  · exact ⟨u, hs, .inr ⟨s.fetches_iff.mpr ⟨hr, hh⟩, hu⟩⟩

/-- A step with RESET IN asserted is the RESET event (R247 a, R270). -/
theorem step_of_resetIn (s : State) (hr : s.env.input.resetIn = true) : step s = .next s.resetEvent := by
  simp [step, hr]

/-! ### The RESET event -/

/-- The RESET event tells the platform of a change of SOD alone (R277). -/
theorem State.resetEvent_events (s : State) :
    s.resetEvent.env.events = if s.sod = true then .sodChange false :: s.env.events else s.env.events := by
  have hev : s.resetEvent.env.events = (s.setSod false).env.events := rfl
  rw [hev, State.setSod_env]
  cases s.sod <;> simp

theorem State.resetEvent_memMap (s : State) : s.resetEvent.env.memMap = s.env.memMap := s.setSod_memMap false

/-- The registers, the flags and SP after RESET are a function of the platform alone: of its next draws (R41, log 3). -/
theorem State.resetEvent_draws {s s' : State} (h : s'.env = s.env) :
    s'.resetEvent.regs = s.resetEvent.regs ∧ s'.resetEvent.flags = s.resetEvent.flags ∧
      s'.resetEvent.sp = s.resetEvent.sp := by
  simp only [State.resetEvent, h, and_self]

/-! ### The statements -/

/-- Settles O39: taking TRAP keeps INTE in trap_ie and clears it, and the first RIM forgets trap_ie. -/
theorem rimAfterTrapShowsTheOldInte : Obligations.RimAfterTrapShowsTheOldInte := by
  intro s
  obtain ⟨t, ht⟩ : ∃ t, s.takeInterrupt .trap = .next t := ⟨_, rfl⟩
  obtain ⟨-, -, hint, -⟩ := State.takeInterrupt_keeps ht
  obtain ⟨u, hu, hu3, hui⟩ := exec_rim_bit3 t
  obtain ⟨v, hv, hv3, -⟩ := exec_rim_bit3 u
  refine ⟨t, u, v, ht, hu, hv, ?_, ?_⟩
  · rw [hu3, hint]; rfl
  · rw [hv3, hui, hint]; rfl

/-- Settles O43: the pop reads the two bytes the push wrote, and the flag byte gives back its flags. -/
theorem programStatusComesBack : Obligations.ProgramStatusComesBack := by
  intro s v f h1 h2
  refine ⟨_, _, rfl, rfl, ?_⟩
  obtain ⟨hw, hsp⟩ := State.popWord_of_pushBytes (s := s.draw.2) (hi := s.reg .a) (lo := s.flags.toByte s.draw.1)
    (t := (((s.draw.2.pushBytes (s.reg .a) (s.flags.toByte s.draw.1)).advance 1).setReg .a v).setFlags f)
    h1 h2 rfl rfl (State.pushBytes_memMap _ _ _)
  refine ⟨?_, ?_, hsp⟩
  · simp only [State.advance_regs, State.setFlags_regs, State.setReg_regs, hw, hiByte_wordOf]
    rfl
  · simp only [State.advance_flags, State.setFlags_flags, hw, loByte_wordOf, ofByte_toByte]

/-- Settles O45. -/
theorem flagsChangeOnlyWhereTheTableSays : Obligations.FlagsChangeOnlyWhereTheTableSays :=
  ⟨fun _ _ _ => exec_flags, fun _ _ => State.sampleInterrupts_flags⟩

/-- Settles O46: neither an instruction other than SIM nor the sampling point writes a mask or SOD. -/
theorem masksAndSodChangeOnlyBySim : Obligations.MasksAndSodChangeOnlyBySim := by
  intro s t h hr hsim
  obtain ⟨u, hu, hcase⟩ := step_samples h hr
  obtain ⟨hmasks, hsod⟩ : SameMasks s.int u.int ∧ u.sod = s.sod := by
    obtain ⟨-, rfl⟩ | ⟨hf, he⟩ := hcase
    · exact ⟨.refl u.int, rfl⟩
    · have hi : s.fetch.1 ≠ .sim := hsim.resolve_left (by simp [(s.fetches_iff.mp hf).2])
      obtain ⟨hint, hsod⟩ := exec_control he
      have hmasks := intAfter_sameMasks s.fetch.2 hi
      rw [← hint, s.fetch_int] at hmasks
      exact ⟨hmasks, (hsod hi).trans s.fetch_sod⟩
  obtain ⟨h55, h65, h75⟩ := hmasks.trans (State.sampleInterrupts_sameMasks hu)
  exact ⟨h55, h65, h75, (State.sampleInterrupts_sod hu).trans hsod⟩

/-- Settles O47: RESET clears INTE, the sampling point does not set it, and of the instructions EI alone does. -/
theorem onlyEiEnablesInterrupts : Obligations.OnlyEiEnablesInterrupts := by
  intro s t h hs ht
  cases hr : s.env.input.resetIn with
  | true =>
    rw [step_of_resetIn s hr] at h
    cases h
    cases ht
  | false =>
    obtain ⟨u, hu, hcase⟩ := step_samples h hr
    have hinte : u.int.inte = true := State.inte_of_sampleInterrupts hu ht
    obtain ⟨-, rfl⟩ | ⟨hf, he⟩ := hcase
    · rw [hs] at hinte; cases hinte
    · rw [(exec_control he).1] at hinte
      exact ⟨hf, (intAfter_inte hinte).resolve_right (by simp [hs])⟩

/-- Settles O48: RESET and the sampling point both clear ei_delay. -/
theorem everyStepClearsTheEiDelay : Obligations.EveryStepClearsTheEiDelay := by
  intro s t h
  cases hr : s.env.input.resetIn with
  | true =>
    rw [step_of_resetIn s hr] at h
    cases h
    rfl
  | false =>
    obtain ⟨u, hu, -⟩ := step_samples h hr
    exact State.sampleInterrupts_eiDelay hu

/-- Settles O49: the sampling point loses a request or an edge to its acceptance only, and an instruction a request to
SIM with bit 4 of A only. -/
theorem restartSevenFiveStaysPending : Obligations.RestartSevenFiveStaysPending := by
  intro s t h hr ht hpc
  obtain ⟨u, hu, hcase⟩ := step_samples h hr
  obtain ⟨hr75, hedge⟩ := State.r75_of_sampleInterrupts hu ht hpc
  obtain ⟨-, rfl⟩ | ⟨hf, he⟩ := hcase
  · exact ⟨hedge, fun hs => by rw [hr75] at hs; cases hs⟩
  · have hinput : u.env.input = s.env.input := by simp only [Env.input, exec_inputs he, s.fetch_inputs]
    refine ⟨hinput ▸ hedge, fun hs => ?_⟩
    rw [(exec_control he).1] at hr75
    obtain ⟨hsim, h4⟩ := (intAfter_r75 hr75).resolve_right (by simp [hs])
    exact ⟨hf, hsim, by simpa [State.reg] using h4⟩

/-- Settles O58. -/
theorem resetEventFixedValues : Obligations.ResetEventFixedValues := fun s hr =>
  ⟨s.resetEvent, step_of_resetIn s hr, rfl, rfl, rfl, rfl, rfl, rfl, rfl, rfl, rfl, rfl, rfl, fun _ => rfl,
    s.resetEvent_memMap, s.resetEvent_events⟩

/-- Settles O59: both states draw afresh, from the same platform. -/
theorem resetForgetsTheRegisters : Obligations.ResetForgetsTheRegisters := by
  intro s s' t t' henv hr h h'
  rw [step_of_resetIn s hr] at h
  rw [step_of_resetIn s' (henv ▸ hr)] at h'
  cases h
  cases h'
  exact State.resetEvent_draws henv

/-- Settles O60. -/
theorem resetStateFixedValues : Obligations.ResetStateFixedValues :=
  ⟨rfl, rfl, rfl, rfl, rfl, rfl, rfl, rfl, rfl, rfl, rfl⟩

end Sys2Proof.Machine

/-! SUPPORT. Memory (spec/20_memory R50 to R64): what a byte access does at each kind of address, what a step leaves in
memory, the fetch of a false conditional jump or call, and the fetch of a byte just stored. -/

namespace Sys2Proof.Machine

/-! ### A byte write at each kind of address -/

/-- A byte write tells the platform nothing where no device answers (R52). -/
theorem State.memWrite_env_of_ne_device {s : State} {a : Word} (h : s.kindAt a ≠ .device) (v : Byte) :
    (s.memWrite a v).env = s.env := by
  have hk : s.env.kindAt a = s.kindAt a := rfl
  rw [State.memWrite_env, Env.write, hk]
  cases e : s.kindAt a with
  | device => exact absurd e h
  | ram | rom | unpopulated => rfl

/-- A byte write leaves the memory list where there is no RAM (R52). -/
theorem State.memWrite_mem_of_ne_ram {s : State} {a : Word} (h : s.kindAt a ≠ .ram) (v : Byte) :
    (s.memWrite a v).mem = s.mem := by
  rw [State.memWrite_mem, State.memAfterWrite]
  cases e : s.kindAt a with
  | ram => exact absurd e h
  | rom | unpopulated | device => rfl

/-- A byte write where there is neither RAM nor a device is ignored (R52). -/
theorem State.memWrite_ignored {s : State} {a : Word} (hr : s.kindAt a ≠ .ram) (hd : s.kindAt a ≠ .device)
    (v : Byte) : s.memWrite a v = s := by
  calc s.memWrite a v = { s with mem := (s.memWrite a v).mem, env := (s.memWrite a v).env } := rfl
    _ = s := by rw [s.memWrite_mem_of_ne_ram hr v, s.memWrite_env_of_ne_device hd v]

/-- A byte write at a device is told to it and changes nothing else (R52). -/
theorem State.memWrite_device {s : State} {a : Word} (h : s.kindAt a = .device) (v : Byte) :
    s.memWrite a v = { s with env := s.env.tell (.deviceWrite a v) } := by
  have hk : s.env.kindAt a = .device := h
  have henv : (s.memWrite a v).env = s.env.tell (.deviceWrite a v) := by rw [State.memWrite_env, Env.write, hk]
  calc s.memWrite a v = { s with mem := (s.memWrite a v).mem, env := (s.memWrite a v).env } := rfl
    _ = _ := by rw [s.memWrite_mem_of_ne_ram (by simp [h]) v, henv]

/-- RAM answers the byte last written to it, and reading it changes nothing (R52). -/
theorem State.memRead_memWrite_ram {s : State} {a : Word} (h : s.kindAt a = .ram) (v : Byte) :
    (s.memWrite a v).memRead a = (v, s.memWrite a v) := by
  rw [State.memRead_stored _ a (State.stored_of_ram ((s.memWrite_kindAt a a v).trans h)), State.byteAt_memWrite,
    if_pos ⟨rfl, h⟩]

/-- A device that has an answer left gives it, and is known to have been read (R52). -/
theorem State.memRead_device_of_answer {s : State} {a : Word} {x : Byte} {xs : List Byte} (h : s.kindAt a = .device)
    (hx : s.env.deviceAnswers = x :: xs) :
    (s.memRead a).1 = x ∧ (s.memRead a).2.env.deviceAnswers = xs ∧
      (s.memRead a).2.env.events = .deviceRead a x :: s.env.events := by
  have hv : (s.env.readDevice a).1 = x := by simp [Env.readDevice, Env.nextAnswer, hx]
  rw [s.memRead_device a h]
  exact ⟨hv, by simp [hx], by simp [hv]⟩

/-! ### What may happen to memory -/

/-- From `s` to `t` the memory map is kept (R60), cells other than RAM are kept (R52), and so is the canonical form
(R50). -/
structure KeepsMemory (s t : State) : Prop where
  memMap : t.env.memMap = s.env.memMap
  cells : ∀ a : Word, s.kindAt a ≠ .ram → t.byteAt a = s.byteAt a
  form : s.mem.wf = true → t.mem.wf = true

/-- Nothing is stored. -/
theorem KeepsMemory.of_eq {s t : State} (hmap : t.env.memMap = s.env.memMap) (hmem : t.mem = s.mem) :
    KeepsMemory s t :=
  ⟨hmap, fun a _ => State.byteAt_of_mem hmem a, fun h => hmem ▸ h⟩

theorem KeepsMemory.trans {s t u : State} (h : KeepsMemory s t) (h' : KeepsMemory t u) : KeepsMemory s u where
  memMap := h'.memMap.trans h.memMap
  cells a ha := (h'.cells a (State.kindAt_of_memMap h.memMap a ▸ ha)).trans (h.cells a ha)
  form hs := h'.form (h.form hs)

theorem KeepsMemory.memWrite (s : State) (a : Word) (v : Byte) : KeepsMemory s (s.memWrite a v) where
  memMap := s.env.write_memMap a v
  cells b hb := by
    rw [State.byteAt_memWrite, if_neg]
    rintro ⟨rfl, hram⟩
    exact hb hram
  form := s.wf_memWrite a v

theorem KeepsMemory.memWrite16 (s : State) (a w : Word) : KeepsMemory s (s.memWrite16 a w) :=
  (memWrite s a (loByte w)).trans (memWrite _ (a + 1) (hiByte w))

theorem KeepsMemory.pushBytes (s : State) (hi lo : Byte) : KeepsMemory s (s.pushBytes hi lo) :=
  ((memWrite s (s.sp - 1) hi).trans (memWrite _ (s.sp - 2) lo)).trans (.of_eq rfl rfl)

theorem KeepsMemory.callTo (s : State) (ret a : Word) : KeepsMemory s (s.callTo ret a) :=
  (pushBytes s (hiByte ret) (loByte ret)).trans (.of_eq rfl rfl)

theorem KeepsMemory.callIf (s : State) (k : Cond) (a : Word) : KeepsMemory s (s.callIf k a) := by
  unfold State.callIf
  split
  · exact callTo s _ a
  · exact .of_eq rfl rfl

/-- An instruction stores to RAM alone, if it stores at all. -/
theorem exec_keepsMemory {i : Instr} {s t : State} (h : exec i s = .next t) : KeepsMemory s t := by
  cases i with
  | undef08 | undef10 | undef18 | undef28 | undef38 | undefCB | undefD9 | undefDD | undefED | undefFD => cases h
  | movMR | mviM | sta | stax => cases h; exact (KeepsMemory.memWrite s _ _).trans (.of_eq rfl rfl)
  | shld => cases h; exact (KeepsMemory.memWrite16 s _ _).trans (.of_eq rfl rfl)
  | inrM | dcrM =>
    cases h
    have hread : KeepsMemory s s.readM.2 := .of_eq (by simp) rfl
    exact (hread.trans (.memWrite _ _ _)).trans (.of_eq rfl rfl)
  | call | rst => cases h; exact .callTo s _ _
  | cnz | cz | cnc | cc | cpo | cpe | cp | cm => cases h; exact .callIf s _ _
  | push => cases h; exact (KeepsMemory.pushBytes s _ _).trans (.of_eq rfl rfl)
  | pushPsw =>
    cases h
    have hdraw : KeepsMemory s s.draw.2 := .of_eq rfl rfl
    exact (hdraw.trans (.pushBytes _ _ _)).trans (.of_eq rfl rfl)
  | xthl =>
    cases h
    have hread : KeepsMemory s (s.memRead16 s.sp).2 := .of_eq (by simp) rfl
    exact ((hread.trans (.memWrite _ _ _)).trans (.memWrite _ _ _)).trans (.of_eq rfl rfl)
  | sim => cases h; dsimp only; split <;> exact .of_eq (by simp) rfl
  | _ => cases h; exact .of_eq (by simp) (by simp)

theorem State.fetch_keepsMemory (s : State) : KeepsMemory s s.fetch.2 := .of_eq s.fetch_memMap s.fetch_mem

/-- Taking an interrupt stores pc, to RAM alone (R248). -/
theorem State.takeInterrupt_keepsMemory {s t : State} {x : Interrupt} (h : s.takeInterrupt x = .next t) :
    KeepsMemory s t := by
  obtain ⟨e, a, rfl, hmap, -⟩ := State.takeInterrupt_cases s t x h
  have haccept : KeepsMemory s { s with int := s.int.accept x, halted := false, env := e } := .of_eq hmap rfl
  exact haccept.trans (.callTo _ _ a)

theorem State.sampleInterrupts_keepsMemory {s t : State} (h : s.sampleInterrupts = .next t) : KeepsMemory s t := by
  have hsampled : KeepsMemory s s.sampled := .of_eq rfl rfl
  obtain ⟨-, rfl⟩ | ⟨x, -, hx⟩ := State.sampleInterrupts_cases s t h
  · exact hsampled
  · exact hsampled.trans (State.takeInterrupt_keepsMemory hx)

/-- RESET stores nothing (R270); an instruction and acceptance store to RAM alone. -/
theorem step_keepsMemory {s t : State} (h : step s = .next t) : KeepsMemory s t := by
  obtain ⟨-, rfl⟩ | ⟨-, -, hs⟩ | ⟨-, -, u, hu, hs⟩ := step_cases s t h
  · exact .of_eq s.resetEvent_memMap rfl
  · exact State.sampleInterrupts_keepsMemory hs
  · exact (s.fetch_keepsMemory.trans (exec_keepsMemory hu)).trans (State.sampleInterrupts_keepsMemory hs)

/-! ### A conditional jump or call whose condition is false -/

/-- The instructions whose fetch looks at a condition have three bytes (R80). -/
theorem length_of_fetchCondition {i : Instr} {k : Cond} (h : fetchCondition i = some k) : i.length = 3 := by
  cases i with
  | jnz | jz | jnc | jc | jpo | jpe | jp | jm | cnz | cz | cnc | cc | cpo | cpe | cp | cm => rfl
  | _ => cases h

/-- A jump or call whose condition is false skips its byte 3 (R58). -/
theorem skipsByte3_of_condition_false {op : Byte} {f : Flags} {k : Cond} (hop : fetchCondition (decode op 0 0) = some k)
    (hk : condHolds k f = false) : skipsByte3 op f = true := by
  rw [skipsByte3, hop]
  simp [hk]

/-- With its condition false a jump or call advances pc past itself and does nothing else (R180 h). -/
theorem exec_of_condition_false {i : Instr} {s : State} {k : Cond} (hi : fetchCondition i = some k)
    (hk : condHolds k s.flags = false) : exec i s = .next (s.advance 3) := by
  have hjump (a : Word) : s.jumpIf k a = s.advance 3 := by simp [State.jumpIf, hk]
  have hcall (a : Word) : s.callIf k a = s.advance 3 := by simp [State.callIf, hk]
  cases i with
  | jnz a | jz a | jnc a | jc a | jpo a | jpe a | jp a | jm a => cases hi; exact congrArg _ (hjump a)
  | cnz a | cz a | cnc a | cc a | cpo a | cpe a | cp a | cm a => cases hi; exact congrArg _ (hcall a)
  | _ => cases hi

/-! ### All addresses RAM -/

/-- 32H and an address, low byte first, is STA (R71, R110). -/
theorem decode_sta (a : Word) : decode 0x32 (loByte a) (hiByte a) = .sta a :=
  congrArg Instr.sta (wordOf_hiByte_loByte a)

/-- Every address is RAM in the empty map (log 5). -/
theorem State.kindAt_of_memMap_nil {s : State} (h : s.env.memMap = []) (a : Word) : s.kindAt a = .ram := by
  simp [State.kindAt, Env.kindAt, h]

/-- In the empty map the fetch reads the cells at pc (R55). -/
theorem State.fetch_of_memMap_nil {s : State} (h : s.env.memMap = []) :
    s.fetch = (decode (s.byteAt s.pc) (s.byteAt (s.pc + 1)) (s.byteAt (s.pc + 2)), s) := by
  have hstored (a : Word) : s.stored a = true := State.stored_of_ram (State.kindAt_of_memMap_nil h a)
  exact s.fetch_of_codeStored (s.codeStored_iff.mpr ⟨hstored _, hstored _, hstored _⟩)

/-- In the empty map a cell holds the byte last written to it (R52). -/
theorem State.byteAt_memWrite_of_memMap_nil {s : State} (h : s.env.memMap = []) (a : Word) (v : Byte) (x : Word) :
    (s.memWrite a v).byteAt x = if x = a then v else s.byteAt x := by
  simp [State.byteAt_memWrite, State.kindAt_of_memMap_nil h]

/-! ### The step -/

/-- The step of an instruction after which no interrupt is recognised (R246). -/
theorem step_of_exec_of_recognised_none {s u : State} (hf : s.fetches = true) (he : exec s.fetch.1 s.fetch.2 = .next u)
    (hn : u.recognised = none) : step s = .next u.sampled := by
  rw [step_of_fetches s hf, he, thenSample, State.sampleInterrupts_none u hn]

/-! ### The statements -/

/-- Settles O12. -/
theorem stepKeepsMemoryForm : Obligations.StepKeepsMemoryForm := fun _ _ hs h => (step_keepsMemory h).form hs

/-- Settles O14. -/
theorem stepChangesOnlyRamCells : Obligations.StepChangesOnlyRamCells := fun _ _ h =>
  ⟨(step_keepsMemory h).memMap, (step_keepsMemory h).cells⟩

/-- Settles O7: the fetch stops after byte 2, and the instruction it answers only advances pc. -/
theorem falseConditionSkipsByteThree : Obligations.FalseConditionSkipsByteThree := by
  intro s s1 s2 op b2 k hf h1 h2 hk hc
  have hs2 : s2 = ((s.memRead s.pc).2.memRead (s.pc + 1)).2 := by rw [h1, h2]
  have hskip : skipsByte3 op s.flags = true := skipsByte3_of_condition_false hk hc
  have hcond : fetchCondition (decode op b2 (s2.byteAt (s.pc + 2))) = some k := by rw [fetchCondition_decode, hk]
  have hexec := exec_of_condition_false (s := s2) hcond (by rw [hs2]; exact hc)
  calc step s = thenSample (exec s.fetch.1 s.fetch.2) := step_of_fetches s hf
    _ = (s2.advance 3).sampleInterrupts := by
      rw [State.fetch_of_skipsByte3 h1 h2 (length_of_fetchCondition hk) hskip, hexec, thenSample]
    _ = State.sampleInterrupts { s2 with pc := s.pc + 3 } := by rw [hs2]; rfl

/-- Settles O11, one kind of address after the other. -/
theorem memoryAccessByKind : Obligations.MemoryAccessByKind := by
  intro s a v
  refine ⟨fun h => ?ram, fun h => ?rom, fun h => ?unpopulated, fun h => ?device, fun b hb => ?other⟩
  case ram =>
    exact ⟨s.memRead_stored a (State.stored_of_ram h), State.memRead_memWrite_ram h v,
      State.memWrite_env_of_ne_device (by simp [h]) v⟩
  case rom =>
    exact ⟨s.memRead_stored a (by simp [State.stored, h]), State.memWrite_ignored (by simp [h]) (by simp [h]) v⟩
  case unpopulated =>
    exact ⟨⟨_, s.memRead_unpopulated a h⟩, State.memWrite_ignored (by simp [h]) (by simp [h]) v⟩
  case device => exact ⟨fun _ _ => State.memRead_device_of_answer h, State.memWrite_device h v⟩
  case other => rw [State.byteAt_memWrite, if_neg fun hc => hb hc.1]

/-- Settles O15: STA stores A to the cell at which the next fetch finds its opcode. -/
theorem fetchSeesTheStoreBefore : Obligations.FetchSeesTheStoreBefore := by
  intro s hf hmap h0 h1 h2 hnone
  have hfetch : s.fetch = (.sta (s.pc + 3), s) := by
    rw [State.fetch_of_memMap_nil hmap, h0, h1, h2, decode_sta]
  obtain ⟨u, hu⟩ : ∃ u, u = (s.memWrite (s.pc + 3) (s.reg .a)).advance 3 := ⟨_, rfl⟩
  have hexec : exec s.fetch.1 s.fetch.2 = .next u := by rw [hfetch, hu]; rfl
  have hrec : u.recognised = none := by rw [← hnone, hu, State.recognised]; simp
  have hcell (x : Word) : u.sampled.byteAt x = if x = s.pc + 3 then s.reg .a else s.byteAt x := by
    rw [← State.byteAt_memWrite_of_memMap_nil hmap, hu]
    rfl
  have hpc : u.sampled.pc = s.pc + 3 := by rw [hu]; rfl
  have hmap' : u.sampled.env.memMap = [] := by rw [← hmap, hu]; exact s.env.write_memMap _ _
  refine ⟨u.sampled, step_of_exec_of_recognised_none hf hexec hrec, hpc, ?_⟩
  rw [State.fetch_of_memMap_nil hmap', hpc]
  simp [hcell, BitVec.add_assoc]

/-- Settles O3. -/
theorem specExampleWordsDecode : Obligations.SpecExampleWordsDecode :=
  ⟨rfl, rfl, rfl, rfl, rfl, rfl, rfl, rfl, rfl, rfl, rfl⟩

/-- Settles O13. -/
theorem resetMemoryHasItsForm : Obligations.ResetMemoryHasItsForm := reset_mem_wf

end Sys2Proof.Machine

/-! SUPPORT. Encoding (spec/30_encoding R70 to R81): the length of a decoded form, the forms each quadrant answers and
their bytes, and the two round trips between instructions and bytes. -/

namespace Sys2Proof

/-! ### The length of a form -/

/-- In quadrant 00 the operand bytes do not decide the length (R78). -/
theorem length_decodeQuadrant00 (y z : BitVec 3) (pp : BitVec 2) (b2 b3 : Byte) :
    (decodeQuadrant00 y z pp b2 b3).length = (decodeQuadrant00 y z pp 0 0).length := by
  unfold decodeQuadrant00
  generalize z.toNat = zn
  generalize y.toNat = yn
  repeat' split
  all_goals rfl

/-- In quadrant 11 the operand bytes do not decide the length (R80). -/
theorem length_decodeQuadrant11 (y z : BitVec 3) (pp : BitVec 2) (b2 b3 : Byte) :
    (decodeQuadrant11 y z pp b2 b3).length = (decodeQuadrant11 y z pp 0 0).length := by
  unfold decodeQuadrant11
  generalize z.toNat = zn
  generalize y.toNat = yn
  repeat' split
  all_goals rfl

/-- The length is a function of the opcode byte alone (R70). -/
theorem length_decode (op b2 b3 : Byte) : (decode op b2 b3).length = opcodeLength op := by
  unfold opcodeLength decode
  dsimp only
  split
  · exact length_decodeQuadrant00 _ _ _ b2 b3
  · rfl
  · rfl
  · exact length_decodeQuadrant11 _ _ _ b2 b3

/-! ### From bytes to a form and back -/

/-- The form is well formed, and its bytes after the opcode are as many of `b2` and `b3` as it has (R71, R77). -/
structure Instr.ReadFrom (i : Instr) (b2 b3 : Byte) : Prop where
  wellFormed : i.wellFormed = true
  encode_eq : encode i = [i.opcode, b2, b3].take i.length

theorem readFrom_decodeQuadrant00 (y z : BitVec 3) (pp : BitVec 2) (b2 b3 : Byte) :
    (decodeQuadrant00 y z pp b2 b3).ReadFrom b2 b3 := by
  unfold decodeQuadrant00
  repeat' split
  all_goals exact ⟨rfl, by simp [encode, Instr.operandBytes, Instr.length]⟩

theorem readFrom_decodeQuadrant01 (ddd sss : BitVec 3) (b2 b3 : Byte) :
    (decodeQuadrant01 ddd sss).ReadFrom b2 b3 := by
  unfold decodeQuadrant01
  split <;> exact ⟨rfl, rfl⟩

theorem readFrom_decodeQuadrant10 (ooo sss : BitVec 3) (b2 b3 : Byte) :
    (decodeQuadrant10 ooo sss).ReadFrom b2 b3 := by
  unfold decodeQuadrant10
  split <;> exact ⟨rfl, rfl⟩

/-- The pair code is 11 in the rows y = 110 and y = 111 only, which PUSH and POP of a pair do not have (R75, R80). -/
theorem stackable_pairOfCode {y : BitVec 3} (h6 : y.toNat ≠ 6) (h7 : y.toNat ≠ 7) :
    (pairOfCode (y.extractLsb' 1 2)).stackable = true := by
  revert y; decide

/-- In quadrant 11 the pair code must be the upper two bits of y: that keeps SP out of PUSH and POP (R72, R75). -/
theorem readFrom_decodeQuadrant11 (y z : BitVec 3) (b2 b3 : Byte) :
    (decodeQuadrant11 y z (y.extractLsb' 1 2) b2 b3).ReadFrom b2 b3 := by
  unfold decodeQuadrant11
  split
  case h_2 | h_6 =>
    split
    case h_6 h6 h7 => exact ⟨stackable_pairOfCode h6 h7, rfl⟩
    all_goals exact ⟨rfl, by simp [encode, Instr.operandBytes, Instr.length]⟩
  all_goals
    repeat' split
    all_goals exact ⟨rfl, by simp [encode, Instr.operandBytes, Instr.length]⟩

/-- `pp` of R72 is the upper part of `y`. -/
theorem extractLsb'_pp (op : Byte) :
    (op.extractLsb' 4 2 : BitVec 2) = (op.extractLsb' 3 3 : BitVec 3).extractLsb' 1 2 := by
  revert op; decide

/-- Every opcode byte begins a well-formed form, with the bytes that follow it as its operand bytes (R73). -/
theorem readFrom_decode (op b2 b3 : Byte) : (decode op b2 b3).ReadFrom b2 b3 := by
  unfold decode
  dsimp only
  split
  · exact readFrom_decodeQuadrant00 _ _ _ b2 b3
  · exact readFrom_decodeQuadrant01 _ _ b2 b3
  · exact readFrom_decodeQuadrant10 _ _ b2 b3
  · rw [extractLsb'_pp]
    exact readFrom_decodeQuadrant11 _ _ b2 b3

/-! ### From a form to its bytes and back -/

/-- The operand bytes are the bytes that follow the opcode (R71). -/
theorem length_operandBytes (i : Instr) : i.operandBytes.length + 1 = i.length := by
  cases i <;> rfl

/-- The opcode byte names the form with its registers, pair and restart number, and the operand bytes fill in the rest
(R72 to R81). -/
theorem decode_opcode_operandBytes {i : Instr} (h : i.wellFormed = true) :
    decode i.opcode (i.operandBytes.getD 0 0) (i.operandBytes.getD 1 0) = i := by
  cases i with
  | movRR dst src => cases dst <;> cases src <;> rfl
  | movRM r | movMR r | inrR r | dcrR r | addR r | adcR r | subR r | sbbR r | anaR r | xraR r | oraR r | cmpR r =>
    cases r <;> rfl
  | inx pair | dcx pair | dad pair => cases pair <;> rfl
  | ldax pair | stax pair =>
    cases pair with
    | bc | de => rfl
    | hl | sp => cases h
  | push pair | pop pair =>
    cases pair with
    | bc | de | hl => rfl
    | sp => cases h
  | rst n => revert n; decide
  | mviR r d8 =>
    simp only [Instr.opcode]
    cases r <;> rfl
  | mviM d8 | adi d8 | aci d8 | sui d8 | sbi d8 | ani d8 | xri d8 | ori d8 | cpi d8 | inPort d8 | outPort d8 =>
    simp only [Instr.opcode]
    rfl
  | lxi pair d16 =>
    conv_rhs => rw [← Machine.wordOf_hiByte_loByte d16]
    simp only [Instr.opcode]
    cases pair <;> rfl
  | lda a | sta a | lhld a | shld a | jmp a | jnz a | jz a | jnc a | jc a | jpo a | jpe a | jp a | jm a | call a
  | cnz a | cz a | cnc a | cc a | cpo a | cpe a | cp a | cm a =>
    conv_rhs => rw [← Machine.wordOf_hiByte_loByte a]
    simp only [Instr.opcode]
    rfl
  | _ => rfl

theorem opcodeLength_opcode {i : Instr} (h : i.wellFormed = true) : opcodeLength i.opcode = i.length := by
  rw [← length_decode i.opcode (i.operandBytes.getD 0 0) (i.operandBytes.getD 1 0), decode_opcode_operandBytes h]

/-- Of a list of bytes the decoder takes as many as the opcode byte asks for (R70). -/
theorem decodeBytes_append {op : Byte} {bs : List Byte} (rest : List Byte) (h : bs.length + 1 = opcodeLength op) :
    decodeBytes (op :: (bs ++ rest)) = .instr (decode op (bs.getD 0 0) (bs.getD 1 0)) rest := by
  match bs, h with
  | [], h => exact decodeBytes_one op rest h.symm
  | [b2], h => exact decodeBytes_two op b2 rest h.symm
  | [b2, b3], h => exact decodeBytes_three op b2 b3 rest h.symm
  | _ :: _ :: _ :: _, h =>
    simp only [List.length_cons] at h
    have hcases := opcodeLength_cases op
    omega

end Sys2Proof

namespace Sys2Proof.Machine

/-- The ten undefined bytes are refused as the forms they decode to are (R13, R81). -/
theorem exec_decode_of_isUndefinedOpcode {op : Byte} (h : isUndefinedOpcode op = true) (b2 b3 : Byte) (s : State) :
    exec (decode op b2 b3) s = .refused (.undefinedOpcode s.pc op) := by
  simp only [isUndefinedOpcode, List.mem_cons, List.not_mem_nil, or_false, decide_eq_true_eq] at h
  rcases h with rfl | rfl | rfl | rfl | rfl | rfl | rfl | rfl | rfl | rfl <;> rfl

/-! ### The statements -/

/-- Settles O1: the decoder takes the operand bytes of the encoding and reads from them the instruction. -/
theorem decodeOfEncodeIsTheInstruction : Obligations.DecodeOfEncodeIsTheInstruction := by
  intro i rest h
  have hlen : i.operandBytes.length + 1 = opcodeLength i.opcode := by
    rw [opcodeLength_opcode h, length_operandBytes]
  calc decodeBytes (encode i ++ rest)
      = .instr (decode i.opcode (i.operandBytes.getD 0 0) (i.operandBytes.getD 1 0)) rest :=
        decodeBytes_append rest hlen
    _ = .instr i rest := by rw [decode_opcode_operandBytes h]

/-- Settles O2: quadrant by quadrant, by `readFrom_decode`. -/
theorem encodeOfDecodeIsTheBytes : Obligations.EncodeOfDecodeIsTheBytes := by
  intro op b2 b3
  obtain ⟨hwf, hbytes⟩ := readFrom_decode op b2 b3
  rw [opcode_decode, length_decode] at hbytes
  exact ⟨hwf, hbytes⟩

/-- Settles O4. -/
theorem undefinedOpcodesAreRefused : Obligations.UndefinedOpcodesAreRefused := fun s =>
  ⟨rfl, rfl, rfl, rfl, rfl, rfl, rfl, rfl, rfl, rfl, fun _ b2 b3 h => exec_decode_of_isUndefinedOpcode h b2 b3 s⟩

end Sys2Proof.Machine

/-! SUPPORT. Data transfer (spec/40_data_transfer R100 to R113): the form a byte triple decodes to, by its operand
bytes; what each operation of a transfer adds to the frame `ChangesOnly`; and the three statements. -/

namespace Sys2Proof

/-- The opcode byte of a well-formed instruction decodes to it with any two bytes that begin with its operand bytes
(R71, R73). -/
theorem decode_of_operandBytes_prefix {i : Instr} {b2 b3 : Byte} (hwf : i.wellFormed = true)
    (h : i.operandBytes <+: [b2, b3]) : decode i.opcode b2 b3 = i := by
  have hlen : i.operandBytes.length + 1 = opcodeLength i.opcode := by
    rw [opcodeLength_opcode hwf, length_operandBytes]
  have hops : i.operandBytes = [b2, b3].take (opcodeLength i.opcode - 1) := by
    rw [← hlen]; exact List.prefix_iff_eq_take.mp h
  have hdecode := decode_opcode_operandBytes hwf
  rw [hops] at hdecode
  rcases opcodeLength_cases i.opcode with hl | hl | hl <;> rw [hl] at hdecode
  · exact (decode_of_length_one _ b2 b3 hl).trans hdecode
  · exact (decode_of_length_two _ b2 b3 hl).trans hdecode
  · exact hdecode

/-- Bytes 2 and 3 are the operand bytes of the word with byte 3 high (R77). -/
theorem wordOf_bytes_prefix (b2 b3 : Byte) : [loByte (wordOf b3 b2), hiByte (wordOf b3 b2)] <+: [b2, b3] := by
  rw [Machine.loByte_wordOf, Machine.hiByte_wordOf]

end Sys2Proof

namespace Sys2Proof.Machine

/-! ### Writing a pair -/

/-- Writing a pair leaves the registers that are not its halves (R22). -/
theorem State.reg_setPair_other (s : State) {p : RegPair} {r : Reg} (w : Word) (h : r ∉ pairHalves p) :
    (s.setPair p w).reg r = s.reg r := by
  cases p with
  | sp => rfl
  | bc | de | hl =>
    simp only [pairHalves, List.mem_cons, List.not_mem_nil, or_false, not_or] at h
    obtain ⟨hhi, hlo⟩ := h
    exact (State.reg_setReg_other _ _ r (loByte w) hlo).trans (s.reg_setReg_other _ r (hiByte w) hhi)

/-- Writing a pair other than SP leaves SP (R22). -/
theorem State.setPair_sp_of_ne (s : State) {p : RegPair} (w : Word) (h : p ≠ .sp) : (s.setPair p w).sp = s.sp := by
  cases p with
  | sp => exact absurd rfl h
  | bc | de | hl => rfl

/-! ### The frame, one operation at a time -/

/-- Nothing has changed yet. -/
theorem changesOnly_refl (s : State) : ChangesOnly [] s.env [] s s :=
  ⟨fun _ _ => rfl, ⟨rfl, rfl, rfl⟩, wrote_nil s s rfl⟩

/-- A byte read before the writes changes the platform only (R52). -/
theorem ChangesOnly.memRead {s t : State} {rs : List Reg} (h : ChangesOnly rs t.env [] s t) (a : Word) :
    ChangesOnly rs (t.memRead a).2.env [] s (t.memRead a).2 := by
  obtain ⟨hregs, hcontrol, hcells, -⟩ := h
  exact ⟨hregs, hcontrol, hcells, (wrote_nil t (t.memRead a).2 rfl).2⟩

theorem ChangesOnly.memWrite {s t : State} {rs : List Reg} {e : Env} {ws : List (Word × Byte)}
    (h : ChangesOnly rs e ws s t) (hmap : e.memMap = s.env.memMap) (a : Word) (v : Byte) :
    ChangesOnly rs e (ws ++ [(a, v)]) s (t.memWrite a v) := by
  obtain ⟨hregs, hcontrol, hwrote⟩ := h
  exact ⟨hregs, hcontrol, hwrote.memWrite hmap a v⟩

theorem ChangesOnly.setReg {s t : State} {rs : List Reg} {e : Env} {ws : List (Word × Byte)}
    (h : ChangesOnly rs e ws s t) (r : Reg) (v : Byte) : ChangesOnly (r :: rs) e ws s (t.setReg r v) := by
  obtain ⟨hregs, hcontrol, hwrote⟩ := h
  refine ⟨fun q hq => ?_, hcontrol, hwrote.congr rfl rfl⟩
  obtain ⟨hne, hmem⟩ := not_or.mp (mt List.mem_cons.mpr hq)
  exact (t.reg_setReg_other r q v hne).trans (hregs q hmem)

theorem ChangesOnly.setPair {s t : State} {rs : List Reg} {e : Env} {ws : List (Word × Byte)}
    (h : ChangesOnly rs e ws s t) (p : RegPair) (w : Word) :
    ChangesOnly (pairHalves p ++ rs) e ws s (t.setPair p w) := by
  obtain ⟨hregs, hcontrol, hwrote⟩ := h
  refine ⟨fun q hq => ?_, ?_, hwrote.congr (t.setPair_mem p w) (t.setPair_env p w)⟩
  · obtain ⟨hhalf, hmem⟩ := not_or.mp (mt List.mem_append.mpr hq)
    exact (t.reg_setPair_other w hhalf).trans (hregs q hmem)
  · simpa [SameControl] using hcontrol

theorem ChangesOnly.advance {s t : State} {rs : List Reg} {e : Env} {ws : List (Word × Byte)}
    (h : ChangesOnly rs e ws s t) (n : Word) : ChangesOnly rs e ws s (t.advance n) := by
  obtain ⟨hregs, hcontrol, hwrote⟩ := h
  exact ⟨hregs, hcontrol, hwrote.congr rfl rfl⟩

/-! ### What the forms of a transfer do -/

/-- An instruction that makes one byte write. -/
theorem effect_of_store {i : Instr} {s : State} {a : Word} {v : Byte} {n : Word}
    (h : exec i s = .next ((s.memWrite a v).advance n)) :
    ∃ t, exec i s = .next t ∧ t.flags = s.flags ∧ t.sp = s.sp ∧ t.pc = s.pc + n ∧
      ChangesOnly [] s.env [(a, v)] s t :=
  ⟨_, h, rfl, rfl, rfl, ((changesOnly_refl s).memWrite rfl a v).advance n⟩

/-- An instruction that makes two byte writes, low byte first. -/
theorem effect_of_store16 {i : Instr} {s : State} {a w : Word} {n : Word}
    (h : exec i s = .next ((s.memWrite16 a w).advance n)) :
    ∃ t, exec i s = .next t ∧ t.flags = s.flags ∧ t.sp = s.sp ∧ t.pc = s.pc + n ∧
      ChangesOnly [] s.env [(a, loByte w), (a + 1, hiByte w)] s t :=
  ⟨_, h, rfl, rfl, rfl, (((changesOnly_refl s).memWrite rfl a _).memWrite rfl (a + 1) _).advance n⟩

/-- An instruction that loads a register with a byte read. -/
theorem effect_of_load {i : Instr} {s : State} {r : Reg} {a n : Word}
    (h : exec i s = .next (((s.memRead a).2.setReg r (s.memRead a).1).advance n)) :
    ∃ t, exec i s = .next t ∧ t.reg r = (s.memRead a).1 ∧ t.flags = s.flags ∧ t.sp = s.sp ∧ t.pc = s.pc + n ∧
      ChangesOnly [r] (s.memRead a).2.env [] s t :=
  ⟨_, h, State.reg_setReg_same _ r _, rfl, rfl, rfl, (((changesOnly_refl s).memRead a).setReg r _).advance n⟩

/-- An instruction that writes a register. -/
theorem effect_of_setReg {i : Instr} {s : State} {r : Reg} {v : Byte} {n : Word}
    (h : exec i s = .next ((s.setReg r v).advance n)) :
    ∃ t, exec i s = .next t ∧ t.reg r = v ∧ t.flags = s.flags ∧ t.sp = s.sp ∧ t.pc = s.pc + n ∧
      ChangesOnly [r] s.env [] s t :=
  ⟨_, h, s.reg_setReg_same r v, rfl, rfl, rfl, ((changesOnly_refl s).setReg r v).advance n⟩

/-- L is the low byte of HL, H the high one (R22). -/
@[simp] theorem State.loByte_hl (s : State) : loByte s.hl = s.reg .l := loByte_wordOf _ _
@[simp] theorem State.hiByte_hl (s : State) : hiByte s.hl = s.reg .h := hiByte_wordOf _ _

/-! ### The statements -/

/-- Settles O18: each form is one byte write, at HL, at a16 or at the pair; SHLD makes two, of the halves of HL. -/
theorem storesToMemory : Obligations.StoresToMemory := by
  intro s src pair b2 b3
  refine ⟨⟨?_, effect_of_store rfl⟩, ⟨?_, effect_of_store rfl⟩, ⟨?_, effect_of_store rfl⟩,
    fun hpair => ⟨?_, effect_of_store rfl⟩, ⟨?_, ?_⟩⟩
  · exact decode_of_operandBytes_prefix (i := .movMR src) rfl List.nil_prefix
  · exact decode_of_operandBytes_prefix (i := .mviM b2) rfl ⟨[b3], rfl⟩
  · exact decode_of_operandBytes_prefix (i := .sta (wordOf b3 b2)) rfl (wordOf_bytes_prefix b2 b3)
  · exact decode_of_operandBytes_prefix (i := .stax pair) hpair List.nil_prefix
  · exact decode_of_operandBytes_prefix (i := .shld (wordOf b3 b2)) rfl (wordOf_bytes_prefix b2 b3)
  · rw [← s.loByte_hl, ← s.hiByte_hl]
    exact effect_of_store16 rfl

/-- Settles O17: each form is one byte read and a register write; LHLD makes two reads and writes HL. -/
theorem loadsFromMemory : Obligations.LoadsFromMemory := by
  intro s dst pair b2 b3
  refine ⟨⟨?_, effect_of_load rfl⟩, ⟨?_, effect_of_load rfl⟩, fun hpair => ⟨?_, effect_of_load rfl⟩,
    ⟨?_, ?lhld⟩⟩
  · exact decode_of_operandBytes_prefix (i := .movRM dst) rfl List.nil_prefix
  · exact decode_of_operandBytes_prefix (i := .lda (wordOf b3 b2)) rfl (wordOf_bytes_prefix b2 b3)
  · exact decode_of_operandBytes_prefix (i := .ldax pair) hpair List.nil_prefix
  · exact decode_of_operandBytes_prefix (i := .lhld (wordOf b3 b2)) rfl (wordOf_bytes_prefix b2 b3)
  case lhld =>
    have hframe := (((changesOnly_refl s).memRead (wordOf b3 b2)).memRead (wordOf b3 b2 + 1)).setPair .hl
      (s.memRead16 (wordOf b3 b2)).1
    exact ⟨_, rfl, loByte_wordOf _ _, hiByte_wordOf _ _, rfl, rfl, rfl, hframe.advance 3⟩

/-- Settles O16: MOV and MVI write a register, LXI a pair, XCHG two pairs with what they held before. -/
theorem registerTransfers : Obligations.RegisterTransfers := by
  intro s dst src pair b2 b3
  refine ⟨⟨?_, effect_of_setReg rfl⟩, ⟨?_, effect_of_setReg rfl⟩, ⟨?_, ?lxi⟩, ⟨rfl, ?xchg⟩⟩
  · exact decode_of_operandBytes_prefix (i := .movRR dst src) rfl List.nil_prefix
  · exact decode_of_operandBytes_prefix (i := .mviR dst b2) rfl ⟨[b3], rfl⟩
  · exact decode_of_operandBytes_prefix (i := .lxi pair (wordOf b3 b2)) rfl (wordOf_bytes_prefix b2 b3)
  case lxi =>
    have hframe := (changesOnly_refl s).setPair pair (wordOf b3 b2)
    rw [List.append_nil] at hframe
    refine ⟨_, rfl, ?_, ?_, fun hne => ?_, ?_, hframe.advance 3⟩
    · exact s.pair_setPair_same pair _
    · exact s.setPair_flags pair _
    · exact s.setPair_sp_of_ne _ hne
    · rw [State.advance_pc, State.setPair_pc]
  case xchg =>
    have hframe := ((changesOnly_refl s).setPair .hl (s.pair .de)).setPair .de (s.pair .hl)
    exact ⟨_, rfl, hiByte_wordOf _ _, hiByte_wordOf _ _, loByte_wordOf _ _, loByte_wordOf _ _, rfl, rfl, rfl,
      hframe.advance 1⟩

end Sys2Proof.Machine

/-! SUPPORT. Arithmetic (spec/41_arithmetic R120 to R141): the results of `add8` and `sub8` in the numbers of the
statements, what each form of an arithmetic instruction does to the state, and the seven statements. -/

namespace Sys2Proof.Machine

/-! ### Results as numbers -/

/-- `add8` answers the sum that `HoldsSum` speaks of (R10, R121). -/
theorem holdsSum_of_add8 {s t : State} {v : Byte} {c : Bool} (hr : t.reg .a = (add8 (s.reg .a) v c).r)
    (hf : t.flags = .ofAlu (add8 (s.reg .a) v c)) : HoldsSum s t v c := by
  unfold HoldsSum
  rw [hr, hf]
  exact ⟨add8_r _ v c, add8_cy _ v c, add8_ac _ v c, ofAlu_signZeroParity _⟩

/-- `sub8` answers the difference that `FlagsOfDifference` speaks of (R11, R121). -/
theorem flagsOfDifference_sub8 (a v : Byte) (b : Bool) :
    FlagsOfDifference a v b (sub8 a v b).r (.ofAlu (sub8 a v b)) :=
  ⟨sub8_r a v b, sub8_cy a v b, sub8_ac a v b, ofAlu_signZeroParity _⟩

theorem add8_one_r (a : Byte) : (add8 a 1 false).r = a + 1 :=
  BitVec.eq_of_toNat_eq (add8_r a 1 false)

theorem add8_one_ac (a : Byte) : (add8 a 1 false).ac = true ↔ a.toNat % 16 = 15 := by
  rw [add8_ac]
  change 16 ≤ a.toNat % 16 + 1 + 0 ↔ _
  omega

theorem sub8_one_r (a : Byte) : (sub8 a 1 false).r = a - 1 := by
  apply BitVec.eq_of_toNat_eq
  rw [sub8_r, BitVec.toNat_sub]
  change (a.toNat + 256 - 1) % 256 = (255 + a.toNat) % 256
  omega

theorem sub8_one_ac (a : Byte) : (sub8 a 1 false).ac = true ↔ a.toNat % 16 ≠ 0 := by
  rw [sub8_ac]
  change 1 + 0 ≤ a.toNat % 16 ↔ _
  omega

/-- The 16-bit sum of DAD (R128). -/
theorem toNat_dadSum (x y : Word) :
    ((x.setWidth 17 + y.setWidth 17 : BitVec 17).extractLsb' 0 16).toNat = (x.toNat + y.toNat) % 65536 := by
  simp only [BitVec.extractLsb'_toNat, BitVec.toNat_add, BitVec.toNat_setWidth]
  omega

/-- CY of DAD: the carry out of bit 15 (R128). -/
theorem dadSum_carry (x y : Word) :
    (x.setWidth 17 + y.setWidth 17 : BitVec 17).getLsbD 16 = true ↔ 65536 ≤ x.toNat + y.toNat := by
  have hx := x.isLt
  have hy := y.isLt
  simp only [BitVec.getLsbD, Nat.testBit_eq_decide_div_mod_eq, decide_eq_true_eq, BitVec.toNat_add,
    BitVec.toNat_setWidth]
  omega

theorem toNat_lowDigit (a : Byte) : (a.extractLsb' 0 4).toNat = a.toNat % 16 := by
  simp [BitVec.extractLsb'_toNat]

theorem toNat_highDigit (a : Byte) : (a.extractLsb' 4 4).toNat = a.toNat / 16 := by
  have ha := a.isLt
  rw [BitVec.extractLsb'_toNat, Nat.shiftRight_eq_div_pow]
  omega

/-- The correction byte of DAA is what it adds to the two digits (R129). -/
theorem toNat_daaCorrection (a : Byte) (f : Flags) :
    (daaCorrection a f).toNat = adjustLow a f.ac + adjustHigh a f.cy := by
  simp only [daaCorrection, adjustLow, adjustHigh, toNat_lowDigit, toNat_highDigit]
  split <;> split <;> rfl

theorem adjustHigh_eq_zero_or (a : Byte) (cy : Bool) : adjustHigh a cy = 0 ∨ adjustHigh a cy = 96 := by
  unfold adjustHigh
  split
  · exact .inr rfl
  · exact .inl rfl

theorem adjustLow_le (a : Byte) (ac : Bool) : adjustLow a ac ≤ 6 := by
  unfold adjustLow
  split <;> omega

/-- DAA sets CY when it adds 60H and never clears it (R129). -/
theorem daaCarry_iff (a : Byte) (f : Flags) :
    daaCarry a f = true ↔ f.cy = true ∨ adjustHigh a f.cy = 96 := by
  simp only [daaCarry, adjustHigh, toNat_lowDigit, toNat_highDigit]
  split <;> simp

/-- The result of DAA (R129). -/
def daaResult (a : Byte) (f : Flags) : AluResult :=
  { add8 a (daaCorrection a f) false with cy := daaCarry a f }

theorem exec_daa (s : State) : exec .daa s = .next ((s.aluToA (daaResult (s.reg .a) s.flags)).advance 1) := rfl

/-- DAA adds to the low digit and to the high one (R129). -/
theorem toNat_daaResult_r (a : Byte) (f : Flags) :
    (daaResult a f).r.toNat = (a.toNat + adjustLow a f.ac + adjustHigh a f.cy) % 256 := by
  calc (daaResult a f).r.toNat
      = (a.toNat + (daaCorrection a f).toNat) % 256 := add8_r a (daaCorrection a f) false
    _ = (a.toNat + adjustLow a f.ac + adjustHigh a f.cy) % 256 := by rw [toNat_daaCorrection, ← Nat.add_assoc]

/-- AC of DAA: what is added to the high digit has no carry out of bit 3 (R129). -/
theorem daaResult_ac (a : Byte) (f : Flags) :
    (daaResult a f).ac = true ↔ 16 ≤ a.toNat % 16 + adjustLow a f.ac := by
  have hlow := adjustLow_le a f.ac
  have hhigh := adjustHigh_eq_zero_or a f.cy
  have hdigit : (daaCorrection a f).toNat % 16 = adjustLow a f.ac := by rw [toNat_daaCorrection]; omega
  have hac := add8_ac a (daaCorrection a f) false
  rwa [hdigit] at hac

/-! ### The addition of decimal digits -/

theorem isBcd_iff (v : Byte) : isBcd v = true ↔ v.toNat / 16 ≤ 9 ∧ v.toNat % 16 ≤ 9 := by
  simp [isBcd]

/-- After an addition of decimal bytes DAA corrects the low digit where the low digits sum to ten or more (R129). -/
theorem adjustLow_of_holdsSum {s t : State} {v : Byte} {c : Bool} (h : HoldsSum s t v c)
    (ha : isBcd (s.reg .a) = true) (hv : isBcd v = true) :
    adjustLow (t.reg .a) t.flags.ac = if 10 ≤ (s.reg .a).toNat % 16 + v.toNat % 16 + c.toNat then 6 else 0 := by
  obtain ⟨hr, -, hac, -⟩ := h
  rw [isBcd_iff] at ha hv
  have hc := Bool.toNat_le c
  unfold adjustLow
  refine if_congr ?_ rfl rfl
  rw [hac, hr]
  omega

/-- After an addition of decimal bytes DAA corrects the high digit where the decimal sum is 100 or more (R129). -/
theorem adjustHigh_of_holdsSum {s t : State} {v : Byte} {c : Bool} (h : HoldsSum s t v c)
    (ha : isBcd (s.reg .a) = true) (hv : isBcd v = true) :
    adjustHigh (t.reg .a) t.flags.cy = if 100 ≤ bcdValue (s.reg .a) + bcdValue v + c.toNat then 96 else 0 := by
  obtain ⟨hr, hcy, -, -⟩ := h
  rw [isBcd_iff] at ha hv
  have hc := Bool.toNat_le c
  unfold adjustHigh bcdValue
  refine if_congr ?_ rfl rfl
  rw [hcy, hr]
  omega

/-- Adding 6 where the low digits sum to ten or more, and 60H where the decimal sum is 100 or more, turns the binary sum
of decimal bytes into the decimal sum (R129). -/
theorem bcdValue_of_adjusted {a v r : Byte} {c cy : Bool} (ha : isBcd a = true) (hv : isBcd v = true)
    (hr : r.toNat = (a.toNat + v.toNat + c.toNat +
      (if 10 ≤ a.toNat % 16 + v.toNat % 16 + c.toNat then 6 else 0) +
      (if 100 ≤ bcdValue a + bcdValue v + c.toNat then 96 else 0)) % 256)
    (hcy : cy = true ↔ 100 ≤ bcdValue a + bcdValue v + c.toNat) :
    isBcd r = true ∧ bcdValue r + 100 * cy.toNat = bcdValue a + bcdValue v + c.toNat := by
  rw [isBcd_iff] at ha hv ⊢
  rw [← if_congr hcy rfl rfl] at hr
  have hc := Bool.toNat_le c
  unfold bcdValue at hcy ⊢
  cases cy with
  | false =>
    simp only [Bool.false_eq_true, false_iff, if_false, Bool.toNat_false] at hr hcy ⊢
    split at hr <;> omega
  | true =>
    simp only [true_iff, if_true, Bool.toNat_true] at hr hcy ⊢
    -- the adjusted sum wraps once
    have hwrap : r.toNat + 256 = a.toNat + v.toNat + c.toNat +
        (if 10 ≤ a.toNat % 16 + v.toNat % 16 + c.toNat then 6 else 0) + 96 := by
      split_ifs at hr ⊢ <;> omega
    split at hwrap <;> omega

/-- After an addition of decimal bytes DAA leaves CY set exactly where the decimal sum is 100 or more (R129). -/
theorem adjustedCarry_of_holdsSum {s t : State} {v : Byte} {c : Bool} (h : HoldsSum s t v c)
    (ha : isBcd (s.reg .a) = true) (hv : isBcd v = true) :
    (t.flags.cy = true ∨ adjustHigh (t.reg .a) t.flags.cy = 96) ↔
      100 ≤ bcdValue (s.reg .a) + bcdValue v + c.toNat := by
  rw [adjustHigh_of_holdsSum h ha hv]
  obtain ⟨-, hcy, -, -⟩ := h
  rw [isBcd_iff] at ha hv
  have hc := Bool.toNat_le c
  unfold bcdValue
  rw [hcy]
  split <;> omega

/-! ### The frame -/

/-- Only the platform has changed: an operand has been read. -/
theorem changesOnly_env (s : State) (e : Env) : ChangesOnly [] e [] s { s with env := e } :=
  ⟨fun _ _ => rfl, ⟨rfl, rfl, rfl⟩, wrote_nil s { s with env := e } rfl⟩

theorem ChangesOnly.setFlags {s t : State} {rs : List Reg} {e : Env} {ws : List (Word × Byte)}
    (h : ChangesOnly rs e ws s t) (f : Flags) : ChangesOnly rs e ws s (t.setFlags f) := by
  obtain ⟨hregs, hcontrol, hwrote⟩ := h
  exact ⟨hregs, hcontrol, hwrote.congr rfl rfl⟩

/-! ### What the forms of an arithmetic instruction do

In each, `e` is the platform once the operand has been read: that of `s` where the operand is no memory byte. -/

/-- An instruction that leaves a result and its five flags in A and the flags. -/
theorem effect_of_aluToA {i : Instr} {s : State} {e : Env} {x : AluResult} {n : Word}
    (h : exec i s = .next ((({ s with env := e } : State).aluToA x).advance n)) :
    ∃ t, exec i s = .next t ∧ t.reg .a = x.r ∧ t.flags = .ofAlu x ∧ t.sp = s.sp ∧ t.pc = s.pc + n ∧
      ChangesOnly [.a] e [] s t :=
  ⟨_, h, rfl, rfl, rfl, rfl, (((changesOnly_env s e).setReg .a x.r).setFlags _).advance n⟩

theorem effect_of_addToA {i : Instr} {s : State} {e : Env} {v : Byte} {c : Bool} {n : Word}
    (h : exec i s = .next ((({ s with env := e } : State).addToA v c).advance n)) :
    ∃ t, exec i s = .next t ∧ HoldsSum s t v c ∧ t.sp = s.sp ∧ t.pc = s.pc + n ∧ ChangesOnly [.a] e [] s t := by
  obtain ⟨t, hexec, hr, hf, hframe⟩ := effect_of_aluToA h
  exact ⟨t, hexec, holdsSum_of_add8 hr hf, hframe⟩

theorem effect_of_subFromA {i : Instr} {s : State} {e : Env} {v : Byte} {b : Bool} {n : Word}
    (h : exec i s = .next ((({ s with env := e } : State).subFromA v b).advance n)) :
    ∃ t, exec i s = .next t ∧ FlagsOfDifference (s.reg .a) v b (t.reg .a) t.flags ∧ t.sp = s.sp ∧
      t.pc = s.pc + n ∧ ChangesOnly [.a] e [] s t := by
  obtain ⟨t, hexec, hr, hf, hframe⟩ := effect_of_aluToA h
  refine ⟨t, hexec, ?_, hframe⟩
  rw [hr, hf]
  exact flagsOfDifference_sub8 _ v b

/-- INR r and DCR r, with `x` the result. -/
theorem effect_of_incDecReg {i : Instr} {s : State} {r : Reg} {x : AluResult} {n : Word}
    (h : exec i s = .next (((s.setReg r x.r).setFlags (s.flags.ofIncDec x)).advance n)) :
    ∃ t, exec i s = .next t ∧ t.reg r = x.r ∧ SignZeroParity t.flags (t.reg r) ∧ t.flags.ac = x.ac ∧
      t.flags.cy = s.flags.cy ∧ t.sp = s.sp ∧ t.pc = s.pc + n ∧ ChangesOnly [r] s.env [] s t := by
  have hr : (((s.setReg r x.r).setFlags (s.flags.ofIncDec x)).advance n).reg r = x.r := s.reg_setReg_same r x.r
  refine ⟨_, h, hr, ?_, rfl, rfl, rfl, rfl, (((changesOnly_refl s).setReg r x.r).setFlags _).advance n⟩
  rw [hr]
  exact ofIncDec_signZeroParity s.flags x

/-- INR M and DCR M, with `x` the result for the byte read at HL. -/
theorem effect_of_incDecMem {i : Instr} {s : State} {x : AluResult} {n : Word}
    (h : exec i s = .next (((s.readM.2.writeM x.r).setFlags (s.flags.ofIncDec x)).advance n)) :
    ∃ t, exec i s = .next t ∧ SignZeroParity t.flags x.r ∧ t.flags.ac = x.ac ∧ t.flags.cy = s.flags.cy ∧
      t.sp = s.sp ∧ t.pc = s.pc + n ∧ ChangesOnly [] (s.memRead s.hl).2.env [(s.hl, x.r)] s t := by
  have hmap : (s.memRead s.hl).2.env.memMap = s.env.memMap := by simp
  have hframe := ((changesOnly_refl s).memRead s.hl).memWrite hmap s.hl x.r
  exact ⟨_, h, ofIncDec_signZeroParity s.flags x, rfl, rfl, rfl, rfl, (hframe.setFlags _).advance n⟩

/-- INX and DCX: a pair is written and no flag. -/
theorem effect_of_setPair {i : Instr} {s : State} {p : RegPair} {w n : Word}
    (h : exec i s = .next ((s.setPair p w).advance n)) :
    ∃ t, exec i s = .next t ∧ t.pair p = w ∧ t.flags = s.flags ∧ (p ≠ .sp → t.sp = s.sp) ∧ t.pc = s.pc + n ∧
      ChangesOnly (pairHalves p) s.env [] s t := by
  have hframe := (changesOnly_refl s).setPair p w
  rw [List.append_nil] at hframe
  refine ⟨_, h, ?_, s.setPair_flags p w, fun hne => s.setPair_sp_of_ne w hne, ?_, hframe.advance n⟩
  · exact s.pair_setPair_same p w
  · rw [State.advance_pc, State.setPair_pc]

/-! ### The statements -/

/-- Settles O19: each form is `addToA`, of a register, of the byte at HL or of the immediate byte. -/
theorem additionsToTheAccumulator : Obligations.AdditionsToTheAccumulator := by
  intro s src b2 b3
  refine ⟨⟨?_, effect_of_addToA rfl⟩, ⟨?_, effect_of_addToA rfl⟩, ⟨?_, effect_of_addToA rfl⟩,
    ⟨?_, effect_of_addToA rfl⟩, ⟨?_, effect_of_addToA rfl⟩, ⟨?_, effect_of_addToA rfl⟩⟩
  · exact decode_of_operandBytes_prefix (i := .addR src) rfl List.nil_prefix
  · exact decode_of_operandBytes_prefix (i := .addM) rfl List.nil_prefix
  · exact decode_of_operandBytes_prefix (i := .adcR src) rfl List.nil_prefix
  · exact decode_of_operandBytes_prefix (i := .adcM) rfl List.nil_prefix
  · exact decode_of_operandBytes_prefix (i := .adi b2) rfl ⟨[b3], rfl⟩
  · exact decode_of_operandBytes_prefix (i := .aci b2) rfl ⟨[b3], rfl⟩

/-- Settles O20: each form is `subFromA`, of a register, of the byte at HL or of the immediate byte. -/
theorem subtractionsFromTheAccumulator : Obligations.SubtractionsFromTheAccumulator := by
  intro s src b2 b3
  refine ⟨⟨?_, effect_of_subFromA rfl⟩, ⟨?_, effect_of_subFromA rfl⟩, ⟨?_, effect_of_subFromA rfl⟩,
    ⟨?_, effect_of_subFromA rfl⟩, ⟨?_, effect_of_subFromA rfl⟩, ⟨?_, effect_of_subFromA rfl⟩⟩
  · exact decode_of_operandBytes_prefix (i := .subR src) rfl List.nil_prefix
  · exact decode_of_operandBytes_prefix (i := .subM) rfl List.nil_prefix
  · exact decode_of_operandBytes_prefix (i := .sbbR src) rfl List.nil_prefix
  · exact decode_of_operandBytes_prefix (i := .sbbM) rfl List.nil_prefix
  · exact decode_of_operandBytes_prefix (i := .sui b2) rfl ⟨[b3], rfl⟩
  · exact decode_of_operandBytes_prefix (i := .sbi b2) rfl ⟨[b3], rfl⟩

/-- Settles O21: the result is that of `add8` and `sub8` with 01H. -/
theorem incrementAndDecrementRegister : Obligations.IncrementAndDecrementRegister := by
  intro s dst b2 b3
  refine ⟨⟨decode_of_operandBytes_prefix (i := .inrR dst) rfl List.nil_prefix, ?inr⟩,
    ⟨decode_of_operandBytes_prefix (i := .dcrR dst) rfl List.nil_prefix, ?dcr⟩⟩
  case inr =>
    rw [← add8_one_r, ← add8_one_ac]
    simpa only [Bool.coe_iff_coe] using effect_of_incDecReg rfl
  case dcr =>
    rw [← sub8_one_r, ← sub8_one_ac]
    simpa only [Bool.coe_iff_coe] using effect_of_incDecReg rfl

/-- Settles O22: as O21, with the byte at HL read once and written once. -/
theorem incrementAndDecrementMemory : Obligations.IncrementAndDecrementMemory := by
  intro s b2 b3
  refine ⟨⟨decode_of_operandBytes_prefix (i := .inrM) rfl List.nil_prefix, ?inr⟩,
    ⟨decode_of_operandBytes_prefix (i := .dcrM) rfl List.nil_prefix, ?dcr⟩⟩
  case inr =>
    rw [← add8_one_r, ← add8_one_ac]
    simpa only [Bool.coe_iff_coe] using effect_of_incDecMem rfl
  case dcr =>
    rw [← sub8_one_r, ← sub8_one_ac]
    simpa only [Bool.coe_iff_coe] using effect_of_incDecMem rfl

/-- Settles O23: INX and DCX write the pair, DAD writes HL and CY. -/
theorem registerPairArithmetic : Obligations.RegisterPairArithmetic := by
  intro s pair b2 b3
  refine ⟨⟨decode_of_operandBytes_prefix (i := .inx pair) rfl List.nil_prefix, ?inx⟩,
    ⟨decode_of_operandBytes_prefix (i := .dcx pair) rfl List.nil_prefix, ?dcx⟩,
    ⟨decode_of_operandBytes_prefix (i := .dad pair) rfl List.nil_prefix, ?dad⟩⟩
  case inx =>
    obtain ⟨t, hexec, hpair, hframe⟩ := effect_of_setPair (i := .inx pair) (s := s) rfl
    refine ⟨t, hexec, ?_, hframe⟩
    rw [hpair, BitVec.toNat_add]
    rfl
  case dcx =>
    obtain ⟨t, hexec, hpair, hframe⟩ := effect_of_setPair (i := .dcx pair) (s := s) rfl
    refine ⟨t, hexec, ?_, hframe⟩
    rw [hpair, BitVec.toNat_sub, Nat.add_comm]
    rfl
  case dad =>
    refine ⟨_, rfl, ?_, ?_, ⟨rfl, rfl, rfl, rfl⟩, rfl, rfl,
      (((changesOnly_refl s).setPair .hl _).setFlags _).advance 1⟩
    · exact (congrArg BitVec.toNat (s.pair_setPair_same .hl _)).trans (toNat_dadSum _ _)
    · exact dadSum_carry _ _

/-- Settles O24: the result of DAA is `daaResult`. -/
theorem decimalAdjust : Obligations.DecimalAdjust := by
  intro s b2 b3
  obtain ⟨t, hexec, hr, hf, hframe⟩ := effect_of_aluToA (exec_daa s)
  have hszp : SignZeroParity t.flags (t.reg .a) := by
    rw [hr, hf]
    exact ofAlu_signZeroParity _
  refine ⟨decode_of_operandBytes_prefix (i := .daa) rfl List.nil_prefix, t, hexec, ?_, ?_, ?_, hszp, hframe⟩
  · rw [hr]
    exact toNat_daaResult_r _ _
  · rw [hf]
    exact daaResult_ac _ _
  · rw [hf]
    exact daaCarry_iff _ _

/-- Settles O25: ACI leaves the binary sum and its carries, from which DAA finds where the decimal sum carries. -/
theorem decimalAdjustMakesTheDecimalSum : Obligations.DecimalAdjustMakesTheDecimalSum := by
  intro s d8 ha hd
  obtain ⟨-, -, -, -, -, -, t, haci, hsum, -⟩ := additionsToTheAccumulator s .a d8 0
  obtain ⟨-, u, hdaa, hr, -, hcy, -⟩ := decimalAdjust t 0 0
  refine ⟨t, u, haci, hdaa, bcdValue_of_adjusted ha hd ?_ (hcy.trans (adjustedCarry_of_holdsSum hsum ha hd))⟩
  rw [hr, adjustLow_of_holdsSum hsum ha hd, adjustHigh_of_holdsSum hsum ha hd]
  obtain ⟨hsumA, -⟩ := hsum
  rw [hsumA]
  simp only [Nat.add_assoc, Nat.mod_add_mod]

end Sys2Proof.Machine

/-! SUPPORT. Logical, compare, carry and rotate (spec/42_logical R150 to R169): what each form does to the state, the
rotates as one turn of a word's bits, and the five statements. -/

namespace Sys2Proof.Machine

/-! ### What the forms of a logical instruction do

In the first two, `e` is the platform once the operand has been read: that of `s` where the operand is no memory byte.
The rotates build A as a word of 7 + 1 or 1 + 7 bits, a width that is 8 only by computation: the library's bit lemmas
are applied there, `rw` and `simp` would not see them fit. -/

/-- AND, exclusive-or and or: `bit k` is what the operation makes of bit `k` of its operands (R150 a, b). -/
theorem effect_of_logicToA {i : Instr} {s : State} {e : Env} {v : Byte} {ac : Bool} {bit : Nat → Bool} {n : Word}
    (h : exec i s = .next ((({ s with env := e } : State).logicToA v ac).advance n))
    (hbit : ∀ k, v.getLsbD k = bit k) :
    ∃ t, exec i s = .next t ∧ (∀ k, (t.reg .a).getLsbD k = bit k) ∧ FlagsOfLogic t.flags (t.reg .a) ac ∧
      t.sp = s.sp ∧ t.pc = s.pc + n ∧ ChangesOnly [.a] e [] s t :=
  ⟨_, h, hbit, ofLogic_flags v ac, rfl, rfl, (((changesOnly_env s e).setReg .a v).setFlags _).advance n⟩

/-- A compare writes the flags of a difference and no register (R150 c). -/
theorem effect_of_compareA {i : Instr} {s : State} {e : Env} {v : Byte} {n : Word}
    (h : exec i s = .next ((({ s with env := e } : State).compareA v).advance n)) :
    ∃ t r, exec i s = .next t ∧ FlagsOfDifference (s.reg .a) v false r t.flags ∧ t.sp = s.sp ∧ t.pc = s.pc + n ∧
      ChangesOnly [] e [] s t :=
  ⟨_, _, h, flagsOfDifference_sub8 _ v false, rfl, rfl, ((changesOnly_env s e).setFlags _).advance n⟩

/-- STC and CMC: CY is written and no register (R163, R164). -/
theorem effect_of_setCy {i : Instr} {s : State} {cy : Bool} {n : Word}
    (h : exec i s = .next ((s.setFlags (s.flags.setCy cy)).advance n)) :
    ∃ t, exec i s = .next t ∧ t.flags.cy = cy ∧ SameFlagsExceptCy s t ∧ t.sp = s.sp ∧ t.pc = s.pc + n ∧
      ChangesOnly [] s.env [] s t :=
  ⟨_, h, rfl, ⟨rfl, rfl, rfl, rfl⟩, rfl, rfl, ((changesOnly_refl s).setFlags _).advance n⟩

/-- A rotate writes A and CY (R150 d). -/
theorem effect_of_rotateA {i : Instr} {s : State} {v : Byte} {cy : Bool} {n : Word}
    (h : exec i s = .next ((s.rotateA v cy).advance n)) :
    ∃ t, exec i s = .next t ∧ t.reg .a = v ∧ t.flags.cy = cy ∧ SameFlagsExceptCy s t ∧ t.sp = s.sp ∧
      t.pc = s.pc + n ∧ ChangesOnly [.a] s.env [] s t :=
  ⟨_, h, rfl, rfl, ⟨rfl, rfl, rfl, rfl⟩, rfl, rfl, (((changesOnly_refl s).setReg .a v).setFlags _).advance n⟩

/-- RLC and RAL: A moves up by one bit, bit 7 goes to CY and `b` comes in as bit 0 (R166, R168). -/
theorem effect_of_rotateUp {i : Instr} {s : State} {b : Bool} {n : Word}
    (h : exec i s = .next ((s.rotateA (((s.reg .a).extractLsb' 0 7 : BitVec 7) ++ BitVec.ofBool b)
      ((s.reg .a).getLsbD 7)).advance n)) :
    ∃ t, exec i s = .next t ∧ (t.reg .a).getLsbD 0 = b ∧
      (∀ k, k < 7 → (t.reg .a).getLsbD (k + 1) = (s.reg .a).getLsbD k) ∧ t.flags.cy = (s.reg .a).getLsbD 7 ∧
      SameFlagsExceptCy s t ∧ t.sp = s.sp ∧ t.pc = s.pc + n ∧ ChangesOnly [.a] s.env [] s t := by
  obtain ⟨t, hexec, ha, hframe⟩ := effect_of_rotateA h
  refine ⟨t, hexec, ?_, fun k hk => ?_, hframe⟩
  · rw [ha]
    exact BitVec.getLsbD_concat_zero
  · rw [ha]
    exact BitVec.getLsbD_concat_succ.trans (by simp [hk])

/-- RRC and RAR: A moves down by one bit, bit 0 goes to CY and `b` comes in as bit 7 (R167, R169). -/
theorem effect_of_rotateDown {i : Instr} {s : State} {b : Bool} {n : Word}
    (h : exec i s = .next ((s.rotateA (BitVec.ofBool b ++ ((s.reg .a).extractLsb' 1 7 : BitVec 7))
      ((s.reg .a).getLsbD 0)).advance n)) :
    ∃ t, exec i s = .next t ∧ (t.reg .a).getLsbD 7 = b ∧
      (∀ k, k < 7 → (t.reg .a).getLsbD k = (s.reg .a).getLsbD (k + 1)) ∧ t.flags.cy = (s.reg .a).getLsbD 0 ∧
      SameFlagsExceptCy s t ∧ t.sp = s.sp ∧ t.pc = s.pc + n ∧ ChangesOnly [.a] s.env [] s t := by
  obtain ⟨t, hexec, ha, hframe⟩ := effect_of_rotateA h
  refine ⟨t, hexec, ?_, fun k hk => ?_, hframe⟩
  · rw [ha]
    exact BitVec.getLsbD_append.trans (by simp)
  · rw [ha]
    exact BitVec.getLsbD_append.trans (by simp [hk, Nat.add_comm])

/-! ### Turning a word -/

/-- `y` is `x` with each bit moved up by `n` places, round the end of the word. -/
def RotatedBy {w : Nat} (n : Nat) (x y : BitVec w) : Prop := ∀ k, k < w → y.getLsbD ((k + n) % w) = x.getLsbD k

theorem rotatedBy_zero {w : Nat} (x : BitVec w) : RotatedBy 0 x x := fun k hk => by
  rw [Nat.add_zero, Nat.mod_eq_of_lt hk]

theorem rotatedBy_one {w : Nat} {x y : BitVec (w + 1)} (hlow : y.getLsbD 0 = x.getLsbD w)
    (hmove : ∀ k, k < w → y.getLsbD (k + 1) = x.getLsbD k) : RotatedBy 1 x y := by
  intro k hk
  rcases Nat.lt_succ_iff_lt_or_eq.mp hk with hlt | rfl
  · rw [Nat.mod_eq_of_lt (Nat.succ_lt_succ hlt)]
    exact hmove k hlt
  · rw [Nat.mod_self]
    exact hlow

theorem RotatedBy.trans {w m n : Nat} {x y z : BitVec w} (hxy : RotatedBy m x y) (hyz : RotatedBy n y z) :
    RotatedBy (m + n) x z := by
  intro k hk
  calc z.getLsbD ((k + (m + n)) % w)
      = z.getLsbD (((k + m) % w + n) % w) := by rw [Nat.mod_add_mod, Nat.add_assoc]
    _ = y.getLsbD ((k + m) % w) := hyz _ (Nat.mod_lt _ (Nat.zero_lt_of_lt hk))
    _ = x.getLsbD k := hxy k hk

/-- As many places as the word has bits are a whole turn. -/
theorem RotatedBy.eq_of_width {w : Nat} {x y : BitVec w} (h : RotatedBy w x y) : y = x :=
  BitVec.eq_of_getLsbD_eq fun k hk => by
    have hbit := h k hk
    rwa [Nat.add_mod_right, Nat.mod_eq_of_lt hk] at hbit

/-- What a word was turned from is determined: turning back undoes a turn. -/
theorem RotatedBy.left_unique {w n : Nat} {x x' y : BitVec w} (h : RotatedBy n x y) (h' : RotatedBy n x' y) : x = x' :=
  BitVec.eq_of_getLsbD_eq fun k hk => (h k hk).symm.trans (h' k hk)

/-! ### The rotates as turns -/

/-- CY and A as the nine bits that RAL and RAR turn: CY is bit 8 (R168, R169). -/
def State.carryA (s : State) : BitVec 9 := .cons s.flags.cy (s.reg .a)

theorem State.getLsbD_carryA_eight (s : State) : s.carryA.getLsbD 8 = s.flags.cy := by
  rw [State.carryA, BitVec.getLsbD_cons, if_pos rfl]

theorem State.getLsbD_carryA_of_lt (s : State) {k : Nat} (hk : k < 8) :
    s.carryA.getLsbD k = (s.reg .a).getLsbD k := by
  rw [State.carryA, BitVec.getLsbD_cons, if_neg hk.ne]

theorem State.carryA_inj {s t : State} (h : t.carryA = s.carryA) : t.reg .a = s.reg .a ∧ t.flags.cy = s.flags.cy := by
  refine ⟨BitVec.eq_of_getLsbD_eq fun k hk => ?_, ?_⟩
  · rw [← t.getLsbD_carryA_of_lt hk, ← s.getLsbD_carryA_of_lt hk, h]
  · rw [← t.getLsbD_carryA_eight, ← s.getLsbD_carryA_eight, h]

/-- A moved up, with CY coming in as bit 0 and bit 7 going to CY, is the nine bits turned by one place (R168). -/
theorem rotatedBy_one_carryA {s t : State} (hlow : (t.reg .a).getLsbD 0 = s.flags.cy)
    (hmove : ∀ k, k < 7 → (t.reg .a).getLsbD (k + 1) = (s.reg .a).getLsbD k)
    (hcy : t.flags.cy = (s.reg .a).getLsbD 7) : RotatedBy 1 s.carryA t.carryA := by
  refine rotatedBy_one ?_ fun k hk => ?_
  · rw [t.getLsbD_carryA_of_lt (by decide), s.getLsbD_carryA_eight, hlow]
  · rw [s.getLsbD_carryA_of_lt hk]
    rcases Nat.lt_succ_iff_lt_or_eq.mp hk with hlt | rfl
    · rw [t.getLsbD_carryA_of_lt (Nat.succ_lt_succ hlt), hmove k hlt]
    · rw [t.getLsbD_carryA_eight, hcy]

theorem exec_rlc_rotatedBy (s : State) : ∃ t, exec .rlc s = .next t ∧ RotatedBy 1 (s.reg .a) (t.reg .a) := by
  obtain ⟨t, hexec, hlow, hmove, -⟩ := effect_of_rotateUp (i := .rlc) (s := s) rfl
  exact ⟨t, hexec, rotatedBy_one hlow hmove⟩

theorem exec_rrc_rotatedBy (s : State) : ∃ t, exec .rrc s = .next t ∧ RotatedBy 1 (t.reg .a) (s.reg .a) := by
  obtain ⟨t, hexec, hhigh, hmove, -⟩ := effect_of_rotateDown (i := .rrc) (s := s) rfl
  exact ⟨t, hexec, rotatedBy_one hhigh.symm fun k hk => (hmove k hk).symm⟩

theorem exec_ral_rotatedBy (s : State) : ∃ t, exec .ral s = .next t ∧ RotatedBy 1 s.carryA t.carryA := by
  obtain ⟨t, hexec, hlow, hmove, hcy, -⟩ := effect_of_rotateUp (i := .ral) (s := s) rfl
  exact ⟨t, hexec, rotatedBy_one_carryA hlow hmove hcy⟩

theorem exec_rar_rotatedBy (s : State) : ∃ t, exec .rar s = .next t ∧ RotatedBy 1 t.carryA s.carryA := by
  obtain ⟨t, hexec, hhigh, hmove, hcy, -⟩ := effect_of_rotateDown (i := .rar) (s := s) rfl
  exact ⟨t, hexec, rotatedBy_one_carryA hcy.symm (fun k hk => (hmove k hk).symm) hhigh.symm⟩

/-- An instruction that turns a word of the state by one place turns it by `n` when it is executed `n` times. -/
theorem execTimes_rotatedBy {i : Instr} {w : Nat} {word : State → BitVec w}
    (h : ∀ s, ∃ t, exec i s = .next t ∧ RotatedBy 1 (word s) (word t)) (n : Nat) (s : State) :
    ∃ t, execTimes i n s = .next t ∧ RotatedBy n (word s) (word t) := by
  induction n generalizing s with
  | zero => exact ⟨s, rfl, rotatedBy_zero _⟩
  | succ n ih =>
    obtain ⟨t, hexec, hone⟩ := h s
    obtain ⟨u, htimes, hrest⟩ := ih t
    refine ⟨u, ?_, Nat.add_comm 1 n ▸ hone.trans hrest⟩
    rw [execTimes, hexec]
    exact htimes

/-! ### The statements -/

/-- Settles O26: each form is `logicToA`, of a register, of the byte at HL or of the immediate byte. -/
theorem logicalOperations : Obligations.LogicalOperations := by
  intro s src b2 b3
  refine ⟨⟨?_, effect_of_logicToA rfl fun _ => BitVec.getLsbD_and⟩,
    ⟨?_, effect_of_logicToA rfl fun _ => BitVec.getLsbD_and⟩,
    ⟨?_, effect_of_logicToA rfl fun _ => BitVec.getLsbD_and⟩,
    ⟨?_, effect_of_logicToA rfl fun _ => BitVec.getLsbD_xor⟩,
    ⟨?_, effect_of_logicToA rfl fun _ => BitVec.getLsbD_xor⟩,
    ⟨?_, effect_of_logicToA rfl fun _ => BitVec.getLsbD_xor⟩,
    ⟨?_, effect_of_logicToA rfl fun _ => BitVec.getLsbD_or⟩,
    ⟨?_, effect_of_logicToA rfl fun _ => BitVec.getLsbD_or⟩,
    ⟨?_, effect_of_logicToA rfl fun _ => BitVec.getLsbD_or⟩⟩
  · exact decode_of_operandBytes_prefix (i := .anaR src) rfl List.nil_prefix
  · exact decode_of_operandBytes_prefix (i := .anaM) rfl List.nil_prefix
  · exact decode_of_operandBytes_prefix (i := .ani b2) rfl ⟨[b3], rfl⟩
  · exact decode_of_operandBytes_prefix (i := .xraR src) rfl List.nil_prefix
  · exact decode_of_operandBytes_prefix (i := .xraM) rfl List.nil_prefix
  · exact decode_of_operandBytes_prefix (i := .xri b2) rfl ⟨[b3], rfl⟩
  · exact decode_of_operandBytes_prefix (i := .oraR src) rfl List.nil_prefix
  · exact decode_of_operandBytes_prefix (i := .oraM) rfl List.nil_prefix
  · exact decode_of_operandBytes_prefix (i := .ori b2) rfl ⟨[b3], rfl⟩

/-- Settles O27: each form is `compareA`, of a register, of the byte at HL or of the immediate byte. -/
theorem comparesLeaveTheAccumulator : Obligations.ComparesLeaveTheAccumulator := by
  intro s src b2 b3
  refine ⟨⟨?_, effect_of_compareA rfl⟩, ⟨?_, effect_of_compareA rfl⟩, ⟨?_, effect_of_compareA rfl⟩⟩
  · exact decode_of_operandBytes_prefix (i := .cmpR src) rfl List.nil_prefix
  · exact decode_of_operandBytes_prefix (i := .cmpM) rfl List.nil_prefix
  · exact decode_of_operandBytes_prefix (i := .cpi b2) rfl ⟨[b3], rfl⟩

/-- Settles O29: RLC and RAL move A up, RRC and RAR down; what comes in is the bit that goes out, or CY. -/
theorem rotatesMoveEveryBit : Obligations.RotatesMoveEveryBit := by
  intro s b2 b3
  refine ⟨⟨?_, effect_of_rotateUp rfl⟩, ⟨?_, effect_of_rotateDown rfl⟩, ⟨?_, effect_of_rotateUp rfl⟩,
    ⟨?_, effect_of_rotateDown rfl⟩⟩
  · exact decode_of_operandBytes_prefix (i := .rlc) rfl List.nil_prefix
  · exact decode_of_operandBytes_prefix (i := .rrc) rfl List.nil_prefix
  · exact decode_of_operandBytes_prefix (i := .ral) rfl List.nil_prefix
  · exact decode_of_operandBytes_prefix (i := .rar) rfl List.nil_prefix

/-- Settles O30: RLC turns the 8 bits of A and RAL the 9 bits of CY and A, by one place; RRC and RAR turn them back. -/
theorem rotatesComeRound : Obligations.RotatesComeRound := by
  intro s
  refine ⟨?rlcRound, ?ralRound, ?rrcUndoes, ?rarUndoes⟩
  case rlcRound =>
    obtain ⟨t, htimes, hturn⟩ := execTimes_rotatedBy exec_rlc_rotatedBy 8 s
    exact ⟨t, htimes, hturn.eq_of_width⟩
  case ralRound =>
    obtain ⟨t, htimes, hturn⟩ := execTimes_rotatedBy exec_ral_rotatedBy 9 s
    exact ⟨t, htimes, State.carryA_inj hturn.eq_of_width⟩
  case rrcUndoes =>
    obtain ⟨t, hrlc, hturn⟩ := exec_rlc_rotatedBy s
    obtain ⟨u, hrrc, hback⟩ := exec_rrc_rotatedBy t
    exact ⟨t, u, hrlc, hrrc, hback.left_unique hturn⟩
  case rarUndoes =>
    obtain ⟨t, hral, hturn⟩ := exec_ral_rotatedBy s
    obtain ⟨u, hrar, hback⟩ := exec_rar_rotatedBy t
    exact ⟨t, u, hral, hrar, State.carryA_inj (hback.left_unique hturn)⟩

/-- Settles O28: STC and CMC write CY, CMA writes A with the complement, 255 less the byte. -/
theorem carryAndComplement : Obligations.CarryAndComplement := by
  intro s b2 b3
  refine ⟨⟨?_, effect_of_setCy rfl⟩, ⟨?_, effect_of_setCy rfl⟩, ⟨?_, ?cma⟩⟩
  · exact decode_of_operandBytes_prefix (i := .stc) rfl List.nil_prefix
  · exact decode_of_operandBytes_prefix (i := .cmc) rfl List.nil_prefix
  · exact decode_of_operandBytes_prefix (i := .cma) rfl List.nil_prefix
  case cma =>
    obtain ⟨t, hexec, ha, hframe⟩ := effect_of_setReg (i := .cma) (s := s) rfl
    exact ⟨t, hexec, (congrArg BitVec.toNat ha).trans (toNat_not_byte _), hframe⟩

end Sys2Proof.Machine

/-! SUPPORT. Branch (spec/43_branch R180 to R211): what a jump, a call and a return do, taken or not, what a push to RAM
and the pop after it leave, and the five statements. -/

namespace Sys2Proof.Machine

/-! ### The frame -/

theorem ChangesOnly.setPc {s t : State} {rs : List Reg} {e : Env} {ws : List (Word × Byte)}
    (h : ChangesOnly rs e ws s t) (a : Word) : ChangesOnly rs e ws s (t.setPc a) := by
  obtain ⟨hregs, hcontrol, hwrote⟩ := h
  exact ⟨hregs, hcontrol, hwrote.congr rfl rfl⟩

theorem ChangesOnly.setSp {s t : State} {rs : List Reg} {e : Env} {ws : List (Word × Byte)}
    (h : ChangesOnly rs e ws s t) (a : Word) : ChangesOnly rs e ws s (t.setSp a) := by
  obtain ⟨hregs, hcontrol, hwrote⟩ := h
  exact ⟨hregs, hcontrol, hwrote.congr rfl rfl⟩

/-- A push makes two byte writes (R180 f). -/
theorem changesOnly_pushBytes (s : State) (hi lo : Byte) :
    ChangesOnly [] s.env (s.pushWrites hi lo) s (s.pushBytes hi lo) :=
  ⟨fun _ _ => rfl, ⟨rfl, rfl, rfl⟩, wrote_pushBytes s hi lo⟩

/-- A pop makes two byte reads (R180 f). -/
theorem changesOnly_popWord (s : State) : ChangesOnly [] s.topEnv [] s s.popWord.2 :=
  (((changesOnly_refl s).memRead s.sp).memRead (s.sp + 1)).setSp (s.sp + 2)

/-! ### What the forms of a branch do

`taken` is the condition of a conditional form (R181), and `true` where there is none. -/

/-- An instruction that continues at an address. -/
theorem effect_of_setPc {i : Instr} {s : State} {a : Word} (h : exec i s = .next (s.setPc a)) :
    ∃ t, exec i s = .next t ∧ t.pc = a ∧ t.flags = s.flags ∧ t.sp = s.sp ∧ ChangesOnly [] s.env [] s t :=
  ⟨_, h, rfl, rfl, rfl, (changesOnly_refl s).setPc a⟩

/-- A jump, to the target if it is taken and else past its three bytes (R180 h). -/
theorem effect_of_jumpWhen {i : Instr} {s : State} {taken : Bool} {a : Word}
    (h : exec i s = .next (if taken = true then s.setPc a else s.advance 3)) :
    ∃ t, exec i s = .next t ∧ t.pc = (if taken = true then a else s.pc + 3) ∧ t.flags = s.flags ∧ t.sp = s.sp ∧
      ChangesOnly [] s.env [] s t := by
  cases taken with
  | true => exact effect_of_setPc h
  | false => exact ⟨_, h, rfl, rfl, rfl, (changesOnly_refl s).advance 3⟩

/-- An instruction that pushes a return address and continues at an address (R180 e, f). -/
theorem effect_of_callTo {i : Instr} {s : State} {ret a : Word} (h : exec i s = .next (s.callTo ret a)) :
    ∃ t, exec i s = .next t ∧ t.flags = s.flags ∧ t.pc = a ∧ t.sp = s.sp - 2 ∧
      ChangesOnly [] s.env (s.pushWrites (hiByte ret) (loByte ret)) s t :=
  ⟨_, h, rfl, rfl, rfl, (changesOnly_pushBytes s _ _).setPc a⟩

/-- A call, with the address past its three bytes as return address (R180 e, f, h). -/
theorem effect_of_callWhen {i : Instr} {s : State} {taken : Bool} {a : Word}
    (h : exec i s = .next (if taken = true then s.callTo (s.pc + 3) a else s.advance 3)) :
    ∃ t, exec i s = .next t ∧ t.flags = s.flags ∧
      (if taken = true then
        t.pc = a ∧ t.sp = s.sp - 2 ∧
        ChangesOnly [] s.env (s.pushWrites (hiByte (s.pc + 3)) (loByte (s.pc + 3))) s t
      else t.pc = s.pc + 3 ∧ t.sp = s.sp ∧ ChangesOnly [] s.env [] s t) := by
  cases taken with
  | true => exact effect_of_callTo h
  | false => exact ⟨_, h, rfl, rfl, rfl, (changesOnly_refl s).advance 3⟩

/-- A return, to the word popped if it is taken and else past its one byte (R180 f, h). -/
theorem effect_of_returnWhen {i : Instr} {s : State} {taken : Bool}
    (h : exec i s = .next (if taken = true then s.returnFromStack else s.advance 1)) :
    ∃ t, exec i s = .next t ∧ t.flags = s.flags ∧
      (if taken = true then t.pc = wordOf s.topHigh s.topLow ∧ t.sp = s.sp + 2 ∧ ChangesOnly [] s.topEnv [] s t
      else t.pc = s.pc + 1 ∧ t.sp = s.sp ∧ ChangesOnly [] s.env [] s t) := by
  cases taken with
  | true => exact ⟨_, h, rfl, rfl, rfl, (changesOnly_popWord s).setPc _⟩
  | false => exact ⟨_, h, rfl, rfl, rfl, (changesOnly_refl s).advance 1⟩

/-- The restart address is below 64, so the product does not wrap (R209). -/
theorem toNat_restartAddress (n : BitVec 3) : (n.setWidth 16 * 8 : Word).toNat = 8 * n.toNat := by
  have hn := n.isLt
  rw [BitVec.toNat_mul, BitVec.toNat_setWidth]
  change n.toNat % 65536 * 8 % 65536 = 8 * n.toNat
  omega

/-! ### A push to RAM and the pop after it -/

/-- A push to RAM tells the platform nothing (R52). -/
theorem State.pushBytes_env_of_ram {s : State} (h1 : s.kindAt (s.sp - 1) = .ram) (h2 : s.kindAt (s.sp - 2) = .ram)
    (hi lo : Byte) : (s.pushBytes hi lo).env = s.env := by
  have h1' : s.kindAt (s.sp - 1) ≠ .device := by rw [h1]; decide
  have h2' : (s.memWrite (s.sp - 1) hi).kindAt (s.sp - 2) ≠ .device := by rw [State.memWrite_kindAt, h2]; decide
  rw [State.pushBytes, State.setSp_env, State.memWrite_env_of_ne_device h2', State.memWrite_env_of_ne_device h1']

/-- A push leaves every cell but the two below SP (R180 f). -/
theorem State.byteAt_pushBytes_other (s : State) (hi lo : Byte) {b : Word} (h1 : b ≠ s.sp - 1) (h2 : b ≠ s.sp - 2) :
    (s.pushBytes hi lo).byteAt b = s.byteAt b := by
  rw [State.pushBytes, State.setSp_byteAt, State.byteAt_memWrite, if_neg fun h => h2 h.1, State.byteAt_memWrite,
    if_neg fun h => h1 h.1]

/-- A pop from RAM or ROM leaves the platform (R52). -/
theorem State.popWord_env_of_stored {s : State} (h : s.stored s.sp = true) (h' : s.stored (s.sp + 1) = true) :
    s.popWord.2.env = s.env := by
  rw [State.popWord_env, s.memRead16_stored _ h h']

/-- A return from a word pushed to RAM, from any later state with that SP, memory and memory map, is the inverse of the
push: it leaves all but the two cells below SP (R180 f, R200). -/
theorem State.returnFromStack_of_pushWord {s t : State} {w : Word} (h1 : s.kindAt (s.sp - 1) = .ram)
    (h2 : s.kindAt (s.sp - 2) = .ram) (hsp : t.sp = s.sp - 2) (hmem : t.mem = (s.pushWord w).mem)
    (hmap : t.env.memMap = s.env.memMap) :
    t.returnFromStack.pc = w ∧ t.returnFromStack.sp = s.sp ∧ t.returnFromStack.env = t.env ∧
      ∀ b, b ≠ s.sp - 1 → b ≠ s.sp - 2 → t.returnFromStack.byteAt b = s.byteAt b := by
  have hstored {a : Word} (h : s.kindAt a = .ram) : t.stored a = true :=
    State.stored_of_ram ((State.kindAt_of_memMap hmap a).trans h)
  have hlow : t.stored t.sp = true := by rw [hsp]; exact hstored h2
  have hhigh : t.stored (t.sp + 1) = true := by
    have hnext : s.sp - 2 + 1 = s.sp - 1 := by bv_omega
    rw [hsp, hnext]; exact hstored h1
  obtain ⟨hword, hspBack⟩ := State.popWord_of_pushBytes h1 h2 hsp hmem hmap
  refine ⟨?pc, hspBack, State.popWord_env_of_stored hlow hhigh, fun b hb1 hb2 => ?cells⟩
  case pc => rw [State.returnFromStack_pc, hword, wordOf_hiByte_loByte]
  case cells =>
    calc t.returnFromStack.byteAt b
        = (s.pushWord w).byteAt b := State.byteAt_of_mem hmem b
      _ = s.byteAt b := s.byteAt_pushBytes_other _ _ hb1 hb2

/-! ### The statements -/

/-- Settles O32: CALL is always taken, the others on their condition. -/
theorem callsPushTheReturnAddress : Obligations.CallsPushTheReturnAddress := by
  intro s b2 b3 a16
  refine List.forall_iff_forall_mem.mp ⟨?call, ?cnz, ?cz, ?cnc, ?cc, ?cpo, ?cpe, ?cp, ?cm⟩
  all_goals
    refine ⟨?_, effect_of_callWhen rfl⟩
    dsimp only -- `rfl` runs the decoder on a literal opcode byte only
    rfl

/-- Settles O33: RET is always taken, the others on their condition. -/
theorem returnsPopThePc : Obligations.ReturnsPopThePc := by
  intro s b2 b3
  refine List.forall_iff_forall_mem.mp ⟨?ret, ?rnz, ?rz, ?rnc, ?rc, ?rpo, ?rpe, ?rp, ?rm⟩
  all_goals
    refine ⟨?_, effect_of_returnWhen rfl⟩
    dsimp only -- `rfl` runs the decoder on a literal opcode byte only
    rfl

/-- Settles O34: RST n is a call to 8 times n with the address of the next byte as return address. -/
theorem restartCallsEightTimesN : Obligations.RestartCallsEightTimesN := by
  intro s n b2 b3
  obtain ⟨t, hexec, hflags, hpc, hsp, hframe⟩ := effect_of_callTo (i := .rst n) (s := s) rfl
  refine ⟨?_, t, hexec, ?_, hsp, hflags, hframe⟩
  · exact decode_of_operandBytes_prefix (i := .rst n) rfl List.nil_prefix
  · rw [hpc, toNat_restartAddress]

/-- Settles O35: the return pops the two bytes that the call has pushed, and RAM tells the platform of neither. -/
theorem callThenReturnComesBack : Obligations.CallThenReturnComesBack := by
  intro s a16 h1 h2
  have henv : (s.callTo (s.pc + 3) a16).env = s.env := State.pushBytes_env_of_ram h1 h2 _ _
  obtain ⟨hpc, hsp, hpopEnv, hcells⟩ := State.returnFromStack_of_pushWord (t := s.callTo (s.pc + 3) a16) h1 h2 rfl rfl
    (congrArg Env.memMap henv)
  refine ⟨_, _, rfl, rfl, hpc, hsp, ?regs, ?flags, ?control, hpopEnv.trans henv, hcells⟩
  case regs => rw [State.returnFromStack_regs, State.callTo_regs]
  case flags => rw [State.returnFromStack_flags, State.callTo_flags]
  case control => simp [SameControl]

/-- Settles O31: PCHL jumps to HL, JMP to its operand, the others on their condition. -/
theorem jumpsChangeOnlyThePc : Obligations.JumpsChangeOnlyThePc := by
  intro s b2 b3 a16
  refine ⟨⟨rfl, effect_of_setPc rfl⟩, ⟨rfl, effect_of_setPc rfl⟩, ?conditional⟩
  case conditional =>
    refine List.forall_iff_forall_mem.mp ⟨?jnz, ?jz, ?jnc, ?jc, ?jpo, ?jpe, ?jp, ?jm⟩
    all_goals
      refine ⟨?_, effect_of_jumpWhen rfl⟩
      dsimp only
      rfl

end Sys2Proof.Machine

/-! SUPPORT. Control (spec/44_control R220 to R225): what SIM loads, what RIM reads, what a sampling point recognises
while the maskable interrupts are disabled or EI delays them, and the five statements. -/

namespace Sys2Proof.Machine

/-! ### SIM and RIM -/

/-- SIM changes pc, the masks and R75, and SOD, a change of which is seen outside (R37, R224, R277). -/
theorem exec_sim_eq (s : State) :
    ∃ sod env, exec .sim s = .next { s with pc := s.pc + 1, int := s.int.sim (s.reg .a), sod := sod, env := env } ∧
      sod = (if (s.reg .a).getLsbD 6 = true then (s.reg .a).getLsbD 7 else s.sod) ∧
      env = (if sod = s.sod then s.env else { s.env with events := .sodChange sod :: s.env.events }) := by
  have hexec : exec .sim s = .next { ((if (s.reg .a).getLsbD 6 = true then s.setSod ((s.reg .a).getLsbD 7)
      else s).advance 1) with int := s.int.sim (s.reg .a) } := rfl
  cases h6 : (s.reg .a).getLsbD 6 with
  | false =>
    rw [h6] at hexec
    exact ⟨_, _, hexec, rfl, (if_pos rfl).symm⟩
  | true =>
    rw [h6] at hexec
    refine ⟨_, _, hexec, rfl, ?_⟩
    simp only [if_true, State.advance_env, State.setSod_env, State.advance_sod, State.setSod_sod, Env.tell, eq_comm]

/-- The byte of RIM, appended bit by bit from SID down to M55 (R225). -/
theorem IntCtl.rimByte_eq_concat (c : IntCtl) (x : StepInput) (sid : Bool) :
    c.rimByte x sid = (((((((BitVec.ofBool sid).concat c.r75).concat x.rst65Pin).concat x.rst55Pin).concat
      (c.trapIe.getD c.inte)).concat c.m75).concat c.m65).concat c.m55 :=
  rfl

/-- The bits of RIM's byte other than bit 3, which `rimByte_getLsbD_three` gives (R225). -/
theorem IntCtl.rimByte_getLsbD (c : IntCtl) (x : StepInput) (sid : Bool) :
    (c.rimByte x sid).getLsbD 7 = sid ∧ (c.rimByte x sid).getLsbD 6 = c.r75 ∧
    (c.rimByte x sid).getLsbD 5 = x.rst65Pin ∧ (c.rimByte x sid).getLsbD 4 = x.rst55Pin ∧
    (c.rimByte x sid).getLsbD 2 = c.m75 ∧ (c.rimByte x sid).getLsbD 1 = c.m65 ∧
    (c.rimByte x sid).getLsbD 0 = c.m55 := by
  simp [IntCtl.rimByte_eq_concat]

/-! ### Sampling points without a maskable interrupt -/

/-- Without a TRAP nothing is recognised while INTE is 0 or EI's delay holds (R39 a, R246, R253). -/
theorem State.recognised_eq_none {s : State} (htrap : trapComes s.int s.env.input.pins = false)
    (hmaskable : s.int.inte = false ∨ s.int.eiDelay = true) : s.recognised = none := by
  have hlatched : ((s.int.latch s.env.input.pins).trapff && s.env.input.pins.trapLevel) = false := htrap
  have hoff : ((s.int.latch s.env.input.pins).inte && !(s.int.latch s.env.input.pins).eiDelay) = false := by
    obtain hinte | hdelay := hmaskable
    · simp [IntCtl.latch, hinte]
    · simp [IntCtl.latch, hdelay]
  simp only [State.recognised, IntCtl.recognise, hlatched, hoff, Bool.false_eq_true, if_false]

/-! ### The statements -/

/-- Settles O37. -/
theorem simLoadsMasksAndSod : Obligations.SimLoadsMasksAndSod := by
  intro s b2 b3
  obtain ⟨sod, env, hexec, hsod, henv⟩ := exec_sim_eq s
  exact ⟨rfl, _, hexec, rfl, rfl, rfl, rfl, rfl, rfl, rfl, rfl, rfl, hsod, henv, rfl, rfl, rfl, rfl, fun _ => rfl⟩

/-- Settles O38: the byte's bits are in A, and the draw for a SID without a value is the only change of the platform. -/
theorem rimReadsTheInterruptState : Obligations.RimReadsTheInterruptState := by
  intro s b2 b3
  obtain ⟨h7, h6, h5, h4, h2, h1, h0⟩ :=
    s.int.rimByte_getLsbD s.env.input (s.env.input.sid.getD (s.draw.1.getLsbD 0))
  have h3 := s.int.rimByte_getLsbD_three s.env.input (s.env.input.sid.getD (s.draw.1.getLsbD 0))
  refine ⟨rfl, _, rfl, ?sid, h6, h5, h4, ?kept, ?inte, h2, h1, h0, rfl, ?regs, rfl, rfl, rfl, rfl, rfl,
    wrote_nil _ _ rfl⟩
  case sid => exact fun sid hsid => h7.trans (by rw [hsid]; rfl)
  case kept => exact fun b hb => h3.trans (by rw [hb]; rfl)
  case inte => exact fun hnone => h3.trans (by rw [hnone]; rfl)
  case regs => exact fun r hr => State.reg_setReg_other _ _ r _ (mt List.mem_singleton.mpr hr)

/-- Settles O54: EI's own delay holds at the sampling point of its step, which therefore takes nothing. -/
theorem eiStepTakesNoMaskableInterrupt : Obligations.EiStepTakesNoMaskableInterrupt := by
  intro s hf hc hop htrap
  have hexec : exec s.fetch.1 s.fetch.2 =
      .next { s with pc := s.pc + 1, int := { s.int with inte := true, eiDelay := true } } := by
    rw [s.fetch_of_codeStored hc, hop]
    rfl
  have hstep := step_of_exec_of_recognised_none hf hexec (State.recognised_eq_none htrap (.inr rfl))
  obtain ⟨-, hhalted⟩ := s.fetches_iff.mp hf
  exact ⟨_, hstep, rfl, rfl, rfl, rfl, hhalted, fun _ => rfl⟩

/-- Settles O56: a halted step only samples, and with INTE = 0 and no TRAP it recognises nothing. -/
theorem disabledHaltEndsOnlyByTrapOrReset : Obligations.DisabledHaltEndsOnlyByTrapOrReset := by
  intro s t hhalted hinte hreset htrap h
  rw [step_of_halted s hhalted hreset, s.sampleInterrupts_none (State.recognised_eq_none htrap (.inl hinte))] at h
  cases h
  exact ⟨hhalted, rfl, rfl, rfl, rfl, fun _ => rfl⟩

/-- Settles O36. -/
theorem simpleControlInstructions : Obligations.SimpleControlInstructions := fun _ _ _ =>
  ⟨⟨rfl, rfl⟩, ⟨rfl, rfl⟩, ⟨rfl, rfl⟩, ⟨rfl, rfl⟩⟩

end Sys2Proof.Machine

/-! SUPPORT. Input, output, stack (spec/45_io_stack R230 to R238): what a port answers, what a push after other changes
adds to the frame, the word a pop reads, and the four statements. -/

namespace Sys2Proof.Machine

/-! ### Port accesses -/

/-- A port read gives the platform's next answer, where it has one (R53). -/
theorem Env.readPort_of_answer {e : Env} {v : Byte} {vs : List Byte} (h : e.portAnswers = v :: vs) (port : Byte) :
    (e.readPort port).1 = v := by
  rw [Env.readPort, Env.nextAnswer, h, List.headD_cons]

/-! ### The stack -/

/-- A push after changes of registers and platform, but no write yet, makes its two byte writes (R180 f). -/
theorem ChangesOnly.pushBytes {s t : State} {rs : List Reg} {e : Env} (h : ChangesOnly rs e [] s t)
    (hmap : e.memMap = s.env.memMap) (hi lo : Byte) :
    ChangesOnly rs e (t.pushWrites hi lo) s (t.pushBytes hi lo) :=
  ((h.memWrite hmap (t.sp - 1) hi).memWrite hmap (t.sp - 2) lo).setSp (t.sp - 2)

/-- A push draws no free value (log 16). -/
@[simp] theorem State.pushBytes_draws (s : State) (hi lo : Byte) : (s.pushBytes hi lo).env.draws = s.env.draws := by
  simp [State.pushBytes]

/-- The halves of the word that a pop or XTHL reads are the two bytes at the stack top (R180 f). -/
@[simp] theorem State.loByte_memRead16_sp (s : State) : loByte (s.memRead16 s.sp).1 = s.topLow := loByte_wordOf _ _
@[simp] theorem State.hiByte_memRead16_sp (s : State) : hiByte (s.memRead16 s.sp).1 = s.topHigh := hiByte_wordOf _ _

/-- Reading the stack top leaves the memory map (R52). -/
@[simp] theorem State.topEnv_memMap (s : State) : s.topEnv.memMap = s.env.memMap := by
  simp [State.topEnv]

/-- The two byte reads of the stack top (R180 f, R237). -/
theorem changesOnly_memRead16_sp (s : State) : ChangesOnly [] s.topEnv [] s (s.memRead16 s.sp).2 :=
  ((changesOnly_refl s).memRead s.sp).memRead (s.sp + 1)

/-! ### The statements -/

/-- Settles O41: PUSH makes the two byte writes of a push, POP the two byte reads of a pop, and writes the pair. -/
theorem pushAndPopPairs : Obligations.PushAndPopPairs := by
  intro s pair b2 b3 hpair
  have hne : pair ≠ .sp := by rintro rfl; cases hpair
  refine ⟨⟨decode_of_operandBytes_prefix (i := .push pair) hpair List.nil_prefix, ?push⟩,
    ⟨decode_of_operandBytes_prefix (i := .pop pair) hpair List.nil_prefix, ?pop⟩⟩
  case push => exact ⟨_, rfl, rfl, rfl, rfl, (changesOnly_pushBytes s _ _).advance 1⟩
  case pop =>
    have hframe := (changesOnly_popWord s).setPair pair s.popWord.1
    rw [List.append_nil] at hframe
    refine ⟨_, rfl, ?_, ?_, ?_, ?_, hframe.advance 1⟩
    · exact State.pair_setPair_same _ pair _
    · exact State.setPair_sp_of_ne _ _ hne
    · exact State.setPair_flags _ pair _
    · rw [State.advance_pc, State.setPair_pc, State.popWord_pc]

/-- Settles O42: the flag byte gives back its flags, whatever the draw for the free bits is, and POP PSW reads them from
the low byte of the word. -/
theorem pushAndPopProgramStatus : Obligations.PushAndPopProgramStatus := by
  intro s b2 b3
  refine ⟨⟨rfl, ?push⟩, ⟨rfl, ?pop⟩⟩
  case push =>
    have hbits : Flags.ofByte (s.flags.toByte s.draw.1) = s.flags := ofByte_toByte _ _
    have hframe := (changesOnly_env s s.env.draw.2).pushBytes rfl (s.reg .a) (s.flags.toByte s.draw.1)
    refine ⟨_, s.flags.toByte s.draw.1, rfl, congrArg Flags.s hbits, congrArg Flags.z hbits, congrArg Flags.ac hbits,
      congrArg Flags.p hbits, congrArg Flags.cy hbits, rfl, rfl, rfl, ?_⟩
    rw [State.advance_env, State.pushBytes_draws]
    exact hframe.advance 1
  case pop =>
    have hbits : Flags.ofByte (loByte s.popWord.1) = .ofByte s.topLow := congrArg Flags.ofByte s.loByte_memRead16_sp
    exact ⟨_, rfl, congrArg Flags.s hbits, congrArg Flags.z hbits, congrArg Flags.ac hbits, congrArg Flags.p hbits,
      congrArg Flags.cy hbits, s.hiByte_memRead16_sp, rfl, rfl,
      (((changesOnly_popWord s).setReg .a _).setFlags _).advance 1⟩

/-- Settles O44: XTHL reads the stack top, writes H and L over it and loads HL with what it read. -/
theorem stackExchangeAndLoad : Obligations.StackExchangeAndLoad := by
  intro s b2 b3
  refine ⟨⟨rfl, ?xthl⟩, ⟨rfl, ?sphl⟩⟩
  case xthl =>
    have hwrites := ((changesOnly_memRead16_sp s).memWrite s.topEnv_memMap (s.sp + 1) (s.reg .h)).memWrite
      s.topEnv_memMap s.sp (s.reg .l)
    exact ⟨_, rfl, s.loByte_memRead16_sp, s.hiByte_memRead16_sp, rfl, rfl, rfl,
      (hwrites.setPair .hl (s.memRead16 s.sp).1).advance 1⟩
  case sphl => exact ⟨_, rfl, rfl, rfl, rfl, ((changesOnly_refl s).setSp s.hl).advance 1⟩

/-- Settles O40: IN is one port read and a write of A, OUT one port write. -/
theorem portInputAndOutput : Obligations.PortInputAndOutput := by
  intro s b2 b3
  refine ⟨⟨rfl, ?input⟩, ⟨rfl, ?output⟩⟩
  case input =>
    exact ⟨_, rfl, fun v vs hanswer => Env.readPort_of_answer hanswer b2, rfl, rfl, rfl,
      ((changesOnly_env s (s.env.readPort b2).2).setReg .a (s.env.readPort b2).1).advance 2⟩
  case output =>
    exact ⟨_, rfl, rfl, rfl, rfl, (changesOnly_env s (s.env.tell (.portWrite b2 (s.reg .a)))).advance 2⟩

end Sys2Proof.Machine

/-! SUPPORT. Exceptions (spec/60_exceptions R240 to R253): which request a sampling point recognises, the state that
acceptance enters, what the acknowledge cycle answers, the push that undoes a pop, and the six statements. -/

namespace Sys2Proof.Machine

/-! ### Which request is recognised -/

/-- The tests of the sampling point, in the order of their priority (R246, R247 b). -/
theorem State.recognised_eq (s : State) :
    s.recognised =
      if (s.int.trapff = true ∨ s.env.input.pins.trapEdge = true) ∧ s.env.input.pins.trapLevel = true then some .trap
      else if s.int.inte = true ∧ s.int.eiDelay = false then
        if (s.int.r75 = true ∨ s.env.input.pins.r75Edge = true) ∧ s.int.m75 = false then some .rst75
        else if s.env.input.pins.r65Level = true ∧ s.int.m65 = false then some .rst65
        else if s.env.input.pins.r55Level = true ∧ s.int.m55 = false then some .rst55
        else if s.env.input.pins.intrLevel = true then some .intr
        else none
      else none := by
  simp [State.recognised, IntCtl.recognise, IntCtl.latch]

/-- After the last input every pin is quiet (log 9). -/
theorem Env.input_of_inputs_nil {e : Env} (h : e.inputs = []) : e.input = .quiet := by
  rw [Env.input, h, List.headD_nil]

/-- With every pin quiet a latched and unmasked RST 7.5 alone can be recognised (R35, R246). -/
theorem State.recognised_of_inputs_nil {s : State} (h : s.env.inputs = []) :
    s.recognised =
      if (s.int.inte = true ∧ s.int.eiDelay = false) ∧ s.int.r75 = true ∧ s.int.m75 = false then some .rst75
      else none := by
  rw [s.recognised_eq, Env.input_of_inputs_nil h, ite_and (P := _ ∧ _)]
  simp [StepInput.quiet, PinSample.quiet]

/-! ### Entering -/

/-- What acceptance does, by the fields it writes (R248, R250). -/
theorem IntCtl.accept_eq (c : IntCtl) (x : Interrupt) :
    c.accept x = { c with
      inte := false
      r75 := if x = .rst75 then false else c.r75
      trapff := if x = .trap then false else c.trapff
      trapIe := if x = .trap then some c.inte else c.trapIe } := by
  cases x <;> rfl

/-- The state in which the routine of `x` begins at `entry`, the platform being `e` before pc is pushed (R248, R250).
`takeInterrupt_of_entry` and the two lemmas on the answers to INTR say when it is reached. -/
def State.entered (s : State) (x : Interrupt) (e : Env) (entry : Word) : State :=
  ({ s with int := s.int.accept x, halted := false, env := e } : State).enter entry

/-- What entering changes, and its frame: pc is pushed and nothing else is written; registers, flags and SOD stay
(R248). -/
theorem State.entered_effect (s : State) (x : Interrupt) {e : Env} (entry : Word)
    (hmap : e.memMap = s.env.memMap) :
    (s.entered x e entry).pc = entry ∧ (s.entered x e entry).sp = s.sp - 2 ∧
      Wrote s (s.entered x e entry) e (s.pushWrites (hiByte s.pc) (loByte s.pc)) ∧
      (s.entered x e entry).int = s.int.accept x ∧ (s.entered x e entry).halted = false ∧
      (s.entered x e entry).regs = s.regs ∧ (s.entered x e entry).flags = s.flags ∧
      (s.entered x e entry).sod = s.sod := by
  have hnone : Wrote s { s with int := s.int.accept x, halted := false, env := e } e [] := wrote_nil _ _ rfl
  have hpush := (hnone.memWrite hmap (s.sp - 1) (hiByte s.pc)).memWrite hmap (s.sp - 2) (loByte s.pc)
  exact ⟨rfl, rfl, hpush.congr rfl rfl, rfl, rfl, rfl, rfl, rfl⟩

/-- Entering draws no free value (log 16). -/
theorem State.entered_draws (s : State) (x : Interrupt) (e : Env) (entry : Word) :
    (s.entered x e entry).env.draws = e.draws :=
  State.pushBytes_draws _ _ _

/-- The four interrupts with an address of their own enter there, and ask the platform nothing (R241, R248). -/
theorem State.takeInterrupt_of_entry (s : State) {x : Interrupt} {entry : Word} (h : x.entry = some entry) :
    s.takeInterrupt x = .next (s.entered x s.env entry) := by
  cases x with
  | trap | rst75 | rst65 | rst55 => cases h; rfl
  | intr => cases h

/-- INTR alone has no address of its own (R241). -/
theorem Interrupt.exists_entry {x : Interrupt} (h : x ≠ .intr) : ∃ entry, x.entry = some entry := by
  cases x with
  | trap | rst75 | rst65 | rst55 => exact ⟨_, rfl⟩
  | intr => exact absurd rfl h

/-- Entry, for any of the four interrupts with an address of its own (R248). -/
theorem State.takeInterrupt_effect (s : State) {x : Interrupt} {entry : Word} (h : x.entry = some entry) :
    ∃ t, s.takeInterrupt x = .next t ∧ t.pc = entry ∧ t.sp = s.sp - 2 ∧
      Wrote s t s.env (s.pushWrites (hiByte s.pc) (loByte s.pc)) ∧
      t.int = { s.int with
        inte := false
        r75 := if x = .rst75 then false else s.int.r75
        trapff := if x = .trap then false else s.int.trapff
        trapIe := if x = .trap then some s.int.inte else s.int.trapIe } ∧
      t.halted = false ∧ t.regs = s.regs ∧ t.flags = s.flags ∧ t.sod = s.sod := by
  have heffect := s.entered_effect x (e := s.env) entry rfl
  rw [IntCtl.accept_eq] at heffect
  exact ⟨_, s.takeInterrupt_of_entry h, heffect⟩

/-! ### The acknowledge cycle of INTR -/

/-- The platform after one acknowledge cycle that answered `v`, `vs` being the answers left (R250, log 11). -/
def Env.acknowledged (e : Env) (v : Byte) (vs : List Byte) : Env :=
  { e with ackAnswers := vs, events := .acknowledge v :: e.events, draws := e.draws + 1 }

/-- An acknowledge cycle gives the platform's next answer, where it has one. -/
theorem Env.acknowledge_of_answer {e : Env} {v : Byte} {vs : List Byte} (h : e.ackAnswers = v :: vs) :
    e.acknowledge = (v, e.acknowledged v vs) := by
  simp [Env.acknowledge, Env.nextAnswer, Env.acknowledged, Env.tell, Env.draw, h]

/-- The three fields of RST n: 11, n, 111 (R250). -/
theorem rstByte_fields (n : BitVec 3) :
    (0b11#2 ++ n ++ 0b111#3).extractLsb' 6 2 = 0b11#2 ∧ (0b11#2 ++ n ++ 0b111#3).extractLsb' 0 3 = 0b111#3 ∧
      (0b11#2 ++ n ++ 0b111#3).extractLsb' 3 3 = n := by
  revert n; decide

/-- INTR answered by RST n enters at 8 times n (R250). -/
theorem State.takeInterrupt_intr_of_rst {s : State} {n : BitVec 3} {vs : List Byte}
    (h : s.env.ackAnswers = (0b11#2 ++ n ++ 0b111#3) :: vs) :
    s.takeInterrupt .intr =
      .next (s.entered .intr (s.env.acknowledged (0b11#2 ++ n ++ 0b111#3) vs) (n.setWidth 16 * 8)) := by
  obtain ⟨hhigh, hlow, hn⟩ := rstByte_fields n
  simp only [State.takeInterrupt, State.acknowledgeIntr, Env.acknowledge_of_answer h]
  rw [if_pos ⟨hhigh, hlow⟩, hn]
  rfl

/-- INTR answered by CALL enters at the address of the next two answers, low byte first (R250). -/
theorem State.takeInterrupt_intr_of_call {s : State} {lo hi : Byte} {vs : List Byte}
    (h : s.env.ackAnswers = 0xCD :: lo :: hi :: vs) :
    s.takeInterrupt .intr =
      .next (s.entered .intr
        (((s.env.acknowledged 0xCD (lo :: hi :: vs)).acknowledged lo (hi :: vs)).acknowledged hi vs)
        (wordOf hi lo)) := by
  have hlo : (s.env.acknowledged 0xCD (lo :: hi :: vs)).ackAnswers = lo :: hi :: vs := rfl
  have hhi : ((s.env.acknowledged 0xCD (lo :: hi :: vs)).acknowledged lo (hi :: vs)).ackAnswers = hi :: vs := rfl
  simp only [State.takeInterrupt, State.acknowledgeIntr, Env.acknowledge_of_answer h, Env.acknowledge_of_answer hlo,
    Env.acknowledge_of_answer hhi]
  rw [if_neg (by decide), if_pos trivial]
  rfl

/-- INTR answered by any other first byte is refused (R250, U6). -/
theorem State.takeInterrupt_intr_of_other {s : State} {v : Byte} {vs : List Byte} (h : s.env.ackAnswers = v :: vs)
    (hv : isAcknowledgeByte v = false) : s.takeInterrupt .intr = .refused (.acknowledgeByte v) := by
  have hneither := mt (isAcknowledgeByte_iff v).mpr (by simp [hv])
  obtain ⟨hrst, hcall⟩ := not_or.mp hneither
  simp only [State.takeInterrupt, State.acknowledgeIntr, Env.acknowledge_of_answer h]
  rw [if_neg hrst, if_neg hcall]

/-! ### A pop and the push that undoes it -/

/-- Pushing back the word just popped leaves every cell as it was, if the two cells are RAM or ROM (R180 f). -/
theorem State.byteAt_pushWord_popWord {s u : State} (hlow : s.stored s.sp = true) (hhigh : s.stored (s.sp + 1) = true)
    (hsp : u.sp = s.sp + 2) (hmem : u.mem = s.mem) (b : Word) :
    (u.pushWord s.popWord.1).byteAt b = s.byteAt b := by
  have hword : s.popWord.1 = wordOf (s.byteAt (s.sp + 1)) (s.byteAt s.sp) :=
    congrArg Prod.fst (s.memRead16_stored s.sp hlow hhigh)
  have h1 : u.sp - 1 = s.sp + 1 := by bv_omega
  have h2 : u.sp - 2 = s.sp := by bv_omega
  rw [State.pushWord, State.pushBytes, State.setSp_byteAt, State.byteAt_memWrite, State.byteAt_memWrite, hword,
    hiByte_wordOf, loByte_wordOf, h1, h2, State.byteAt_of_mem hmem]
  split
  next hb => rw [hb.1]
  next =>
    split
    next hb => rw [hb.1]
    next => rfl

/-! ### EI and RET with every pin quiet -/

/-- The state that EI leaves: past its byte, interrupts enabled and delayed (R222). -/
def State.afterEi (s : State) : State :=
  { s with pc := s.pc + 1, int := { s.int with inte := true, eiDelay := true } }

theorem exec_ei (s : State) : exec .ei s = .next s.afterEi := rfl

/-- The step of EI with no input left takes nothing: EI's own delay holds at its sampling point (R39 a, R253). -/
theorem step_ei_of_inputs_nil {s : State} (hf : s.fetches = true) (hmap : s.env.memMap = [])
    (hinputs : s.env.inputs = []) (hop : s.byteAt s.pc = 0xFB) : step s = .next s.afterEi.sampled := by
  have hfetch : s.fetch = (.ei, s) := by
    rw [State.fetch_of_memMap_nil hmap, hop]
    rfl
  have hrecognised : s.afterEi.recognised = none := by
    rw [State.recognised_of_inputs_nil (s := s.afterEi) hinputs]
    simp [State.afterEi]
  exact step_of_exec_of_recognised_none hf (by rw [hfetch, exec_ei]) hrecognised

/-- The step of RET with no input left and RST 7.5 pending, unmasked and enabled returns and then takes it, and the entry
pushes back the word the RET has popped (R248, R253). -/
theorem step_ret_takes_rst75 {s : State} (hf : s.fetches = true) (hmap : s.env.memMap = [])
    (hinputs : s.env.inputs = []) (hop : s.byteAt s.pc = 0xC9) (hinte : s.int.inte = true)
    (hdelay : s.int.eiDelay = false) (hr75 : s.int.r75 = true) (hm75 : s.int.m75 = false) :
    ∃ u, step s = .next u ∧ u.pc = 0x003C ∧ u.sp = s.sp ∧ u.int.inte = false ∧ u.int.r75 = false ∧
      ∀ b, u.byteAt b = s.byteAt b := by
  have hstored (a : Word) : s.stored a = true := State.stored_of_ram (State.kindAt_of_memMap_nil hmap a)
  have hfetch : s.fetch = (.ret, s) := by
    rw [State.fetch_of_memMap_nil hmap, hop]
    rfl
  have hexec : exec s.fetch.1 s.fetch.2 = .next s.returnFromStack := by
    rw [hfetch]
    rfl
  have hinputs' : s.returnFromStack.env.inputs = [] := by simpa using hinputs
  have hrecognised : s.returnFromStack.recognised = some .rst75 := by
    rw [State.recognised_of_inputs_nil hinputs']
    exact if_pos ⟨⟨hinte, hdelay⟩, hr75, hm75⟩
  have hstep : step s = .next (s.returnFromStack.sampled.entered .rst75 s.returnFromStack.sampled.env 0x003C) := by
    rw [step_of_fetches s hf, hexec, thenSample, State.sampleInterrupts_some _ _ hrecognised,
      State.takeInterrupt_of_entry _ rfl]
  refine ⟨_, hstep, rfl, ?sp, rfl, rfl, fun b => ?cells⟩
  case sp => exact BitVec.add_sub_cancel s.sp 2
  case cells =>
    exact State.byteAt_pushWord_popWord (hstored _) (hstored _)
      (u := { s.returnFromStack.sampled with
        int := s.returnFromStack.sampled.int.accept .rst75
        halted := false }) rfl rfl b

/-! ### The statements -/

/-- Settles O50: the first request that passes its test is the one recognised. -/
theorem samplingTakesTheFirstRequest : Obligations.SamplingTakesTheFirstRequest := by
  intro s p
  have hrecognised := s.recognised_eq
  split_ifs at hrecognised ⊢ with htrap henabled h75 h65 h55 hintr
  · exact s.sampleInterrupts_some .trap hrecognised
  · exact s.sampleInterrupts_some .rst75 hrecognised
  · exact s.sampleInterrupts_some .rst65 hrecognised
  · exact s.sampleInterrupts_some .rst55 hrecognised
  · exact s.sampleInterrupts_some .intr hrecognised
  · exact s.sampleInterrupts_none hrecognised
  · exact s.sampleInterrupts_none hrecognised

/-- Settles O51. -/
theorem interruptEntry : Obligations.InterruptEntry := fun s =>
  List.forall_iff_forall_mem.mp
    ⟨s.takeInterrupt_effect rfl, s.takeInterrupt_effect rfl, s.takeInterrupt_effect rfl, s.takeInterrupt_effect rfl⟩

/-- Settles O52, by the first byte that the device answers. -/
theorem interruptAcknowledge : Obligations.InterruptAcknowledge := by
  intro s v lo hi vs n
  refine ⟨fun h => ?rst, fun h => ?call, State.takeInterrupt_intr_of_other⟩
  case rst =>
    obtain ⟨hpc, heffect⟩ := s.entered_effect .intr (e := s.env.acknowledged (0b11#2 ++ n ++ 0b111#3) vs)
      (n.setWidth 16 * 8) rfl
    refine ⟨_, State.takeInterrupt_intr_of_rst h, ?_, ?_⟩
    · rw [hpc, toNat_restartAddress]
    · rw [State.entered_draws]
      exact heffect
  case call =>
    refine ⟨_, State.takeInterrupt_intr_of_call h, ?_⟩
    rw [State.entered_draws]
    exact s.entered_effect .intr (wordOf hi lo) rfl

/-- Settles O53: RET pops the pc that entering has pushed, and RAM tells the platform of neither. -/
theorem interruptThenReturnResumes : Obligations.InterruptThenReturnResumes := by
  intro s x hx h1 h2
  obtain ⟨entry, hentry⟩ := Interrupt.exists_entry hx
  have henv : (s.entered x s.env entry).env = s.env := State.pushBytes_env_of_ram h1 h2 _ _
  obtain ⟨hpc, hsp, hpopEnv, -⟩ := State.returnFromStack_of_pushWord (w := s.pc) (t := s.entered x s.env entry)
    h1 h2 rfl rfl (congrArg Env.memMap henv)
  exact ⟨_, _, s.takeInterrupt_of_entry hentry, rfl, hpc, hsp, rfl, rfl, IntCtl.accept_inte _ x, hpopEnv.trans henv⟩

/-- Settles O55: the step of EI takes nothing, and that of the RET ends by taking RST 7.5. -/
theorem eiThenReturnReturnsFirst : Obligations.EiThenReturnReturnsFirst := by
  intro s hf hmap hinputs hei hret hr75 hm75
  have hinputs' : s.afterEi.sampled.env.inputs = [] := congrArg List.tail hinputs
  have hf' : s.afterEi.sampled.fetches = true := by
    obtain ⟨-, hhalted⟩ := s.fetches_iff.mp hf
    exact (State.fetches_iff _).mpr ⟨by rw [Env.input_of_inputs_nil hinputs']; rfl, hhalted⟩
  have hpending : s.afterEi.sampled.int.r75 = true := Bool.or_eq_true_iff.mpr (.inl hr75)
  obtain ⟨u, hstep, hu⟩ := step_ret_takes_rst75 hf' hmap hinputs' hret rfl rfl hpending hm75
  exact ⟨s.afterEi.sampled, u, step_ei_of_inputs_nil hf hmap hinputs hei, rfl, hstep, hu⟩

/-- Settles O9. -/
theorem everyDefinedInstructionCompletes : Obligations.EveryDefinedInstructionCompletes := fun i s hdefined =>
  (exec_cases i s).resolve_right fun ⟨hundefined, _⟩ => by rw [hdefined] at hundefined; cases hundefined

end Sys2Proof.Machine

/-! SUPPORT. Reset and hazards (spec/70_reset_and_hazards R276, with R221): what the sampling point of a run that has
ended recognises and leaves, and the statement. -/

namespace Sys2Proof.Machine

/-! ### The end of a run -/

/-- Quiet pins set no latch (R246). -/
theorem IntCtl.latch_quiet (c : IntCtl) : c.latch .quiet = c := by simp [IntCtl.latch, PinSample.quiet]

/-- After the last input a run stays ended if nothing is recognised under quiet pins, neither now nor once EI's delay is
over (R39 a, R276). -/
theorem staysHalted_nil_iff (c : IntCtl) :
    staysHalted [] c = true ↔
      c.recognise .quiet = none ∧ ({ c with eiDelay := false } : IntCtl).recognise .quiet = none := by
  simp [staysHalted]

/-- An input left asserts no RESET and has nothing recognised, and the run stays ended from what its sampling leaves
(R276). -/
theorem staysHalted_cons_iff (x : StepInput) (xs : List StepInput) (c : IntCtl) :
    staysHalted (x :: xs) c = true ↔
      x.resetIn = false ∧ (c.latch x.pins).recognise x.pins = none ∧
        staysHalted xs { c.latch x.pins with eiDelay := false } = true := by
  simp [staysHalted, and_assoc]

/-- Halted for good, a state asserts no RESET, recognises nothing, and its sampling leaves it halted for good: where no
input is left the sampling clears EI's delay alone, and else it goes on to the next input (R246, R276). -/
theorem State.staysHalted_sampled {s : State} (h : staysHalted s.env.inputs s.int = true) :
    s.env.input.resetIn = false ∧ s.recognised = none ∧
      staysHalted s.sampled.env.inputs s.sampled.int = true := by
  have hint : s.sampled.int = { s.int.latch s.env.input.pins with eiDelay := false } := rfl
  have hinputs : s.sampled.env.inputs = s.env.inputs.tail := rfl
  rw [State.recognised, hint, hinputs]
  cases hin : s.env.inputs with
  | nil =>
    rw [hin, staysHalted_nil_iff] at h
    obtain ⟨hnow, hlater⟩ := h
    have hquiet : s.env.input = .quiet := Env.input_of_inputs_nil hin
    have hpins : s.env.input.pins = .quiet := congrArg StepInput.pins hquiet
    rw [hpins, s.int.latch_quiet]
    exact ⟨congrArg StepInput.resetIn hquiet, hnow, (staysHalted_nil_iff _).mpr ⟨hlater, hlater⟩⟩
  | cons x xs =>
    have hinput : s.env.input = x := by rw [Env.input, hin, List.headD_cons]
    rw [hinput]
    exact (staysHalted_cons_iff x xs s.int).mp (hin ▸ h)

theorem State.runEnded_iff (s : State) :
    s.runEnded = true ↔ s.halted = true ∧ staysHalted s.env.inputs s.int = true := Bool.and_eq_true_iff

/-! ### The statement -/

/-- Settles O57: the step of a run that has ended is a sampling that recognises nothing, after which it has still ended. -/
theorem endedRunStaysEnded : Obligations.EndedRunStaysEnded := by
  intro s h
  obtain ⟨hhalted, hstays⟩ := s.runEnded_iff.mp h
  obtain ⟨hreset, hnone, hstays'⟩ := State.staysHalted_sampled hstays
  have hstep : step s = .next s.sampled := (step_of_halted s hhalted hreset).trans (s.sampleInterrupts_none hnone)
  have hended : s.sampled.runEnded = true := s.sampled.runEnded_iff.mpr ⟨hhalted, hstays'⟩
  exact ⟨s.sampled, hstep, hended, hhalted, rfl, rfl, rfl, rfl, rfl, rfl, rfl⟩

end Sys2Proof.Machine
